-- ==== Sys2Proof/Word.lean ====
section
/-! DEFINITION. Bytes, five-byte fields and the input ports of CIVB (spec/00_scope.md R6, R7; spec/10_state.md R32). -/

namespace Sys2Proof

/-- A byte: an unsigned integer 0 to 255 (R6). -/
abbrev Byte := BitVec 8

/-- Five bytes in wire order, `p0` first on the wire and least significant pair (spec/20_memory.md R42). -/
structure Field5 where
  p0 : Byte
  p1 : Byte
  p2 : Byte
  p3 : Byte
  p4 : Byte
  deriving DecidableEq, Repr, Inhabited

/-- The five bytes as a list, first transmitted first (R7). -/
def Field5.bytes (p : Field5) : List Byte := [p.p0, p.p1, p.p2, p.p3, p.p4]

/-- The input ports of R32 that an operation reads, under the spec's names and widths. `a_resp` carries its own
length, so `a_len` is `a_resp.length` (log entry 9). A port left out of a literal is 0. -/
structure Ports where
  opsel   : BitVec 8
  a_t     : BitVec 4 := 0
  a_u     : BitVec 4 := 0
  a_byte  : BitVec 8 := 0
  a_p     : Field5 := ⟨0, 0, 0, 0, 0⟩
  a_v     : BitVec 34 := 0
  a_lo    : BitVec 34 := 0
  a_hi    : BitVec 34 := 0
  a_seg   : BitVec 7 := 0
  a_slot  : BitVec 4 := 0
  a_resp  : List Byte := []
  a_band  : BitVec 4 := 0
  a_ent   : BitVec 2 := 0
  a_mode  : BitVec 4 := 0
  a_dflag : BitVec 1 := 0
  a_f10   : BitVec 30 := 0
  a_ofs   : BitVec 32 := 0
  a_wid   : BitVec 32 := 0
  deriving DecidableEq, Repr

end Sys2Proof
end

