-- ==== Sys2Proof/Config.lean ====
section
/-! DEFINITION. What an implementation of CIVB fixes: the types of the ROM image TBL and of the configuration record
CFG, their well-formedness (spec/10_state.md R28 to R31; spec/00_scope.md R5), and the free values of the model. -/

namespace Sys2Proof

/-! ### The table ROM -/

/-- An edge pair (lo, hi) in kHz (R28). -/
structure Edge where
  lo : Nat
  hi : Nat
  deriving DecidableEq, Repr, Inhabited

/-- The ROM image TBL: `edge[b][e]`, `name[m][d]`, `seg[b]` (R28). Entry 3 of a band's row is the whole-band entry. -/
structure Table where
  edge : Vector (Vector Edge 4) 12
  name : Vector (Vector (List Byte) 2) 14
  seg  : Vector Nat 12
  deriving DecidableEq, Repr, Inhabited

/-- WF1: every whole-band entry has `lo <= hi` (R29). -/
abbrev Table.WF1 (t : Table) : Prop := ∀ b : Fin 12, t.edge[b][3].lo ≤ t.edge[b][3].hi
/-- WF2: whole bands ascend and do not overlap (R29). -/
abbrev Table.WF2 (t : Table) : Prop := ∀ b : Fin 11, t.edge[b.val][3].hi < t.edge[b.val + 1][3].lo
/-- WF3: every edge is at most 99999 kHz (R29). -/
abbrev Table.WF3 (t : Table) : Prop :=
  ∀ b : Fin 12, ∀ e : Fin 4, t.edge[b][e].lo ≤ 99999 ∧ t.edge[b][e].hi ≤ 99999
/-- WF4: every segment number is at most 99 (R29). -/
abbrev Table.WF4 (t : Table) : Prop := ∀ b : Fin 12, t.seg[b] ≤ 99
/-- WF5: every name is at most 8 bytes, each 0x20 to 0x7E (R29). -/
abbrev Table.WF5 (t : Table) : Prop :=
  ∀ m : Fin 14, ∀ d : Fin 2,
    t.name[m][d].length ≤ 8 ∧ ∀ c ∈ t.name[m][d], 0x20 ≤ c.toNat ∧ c.toNat ≤ 0x7E
/-- R30 for the two codes the spec names as unnamed, 6 and 9: their names are the two digits and `?`. -/
abbrev Table.UnnamedNames (t : Table) : Prop :=
  ∀ d : Fin 2, t.name[6][d] = [0x30#8, 0x36#8, 0x3F#8] ∧ t.name[9][d] = [0x30#8, 0x39#8, 0x3F#8]
/-- A well-formed ROM image (R29, WF1 to WF5). -/
abbrev Table.WellFormed (t : Table) : Prop := t.WF1 ∧ t.WF2 ∧ t.WF3 ∧ t.WF4 ∧ t.WF5

/-! ### The configuration record -/

/-- ROUND_TIE: what `round` does at exactly .50 kHz (R5, D18). -/
inductive RoundTie where
  | halfUp
  | halfEven
  deriving DecidableEq, Repr, Inhabited

/-- The open fields of CFG (R5, R31); a default is the spec's (D6, D9, D12, D15). -/
structure Cfg where
  /-- SCOPE_SEL, the bytes between sub-command and data in the 0x14 and 0x16 frames. -/
  scopeSel   : List Byte := [0x00]
  /-- N_SLOTS, the number of edge-set slots. -/
  nSlots     : Nat := 3
  /-- CFG.slot, the slot the sequencer uses. -/
  slot       : Nat := 1
  /-- FREQ_MIN_LEN, the shortest response DECFRQ accepts. -/
  freqMinLen : Nat := 6
  /-- MODE_OFS, the distance from the end of the response to the mode byte. -/
  modeOfs    : Nat := 4
  /-- MODE_MIN_LEN, the shortest response DECMOD accepts. -/
  modeMinLen : Nat := 4
  /-- ROUND_TIE, with no default. -/
  roundTie   : RoundTie
  deriving DecidableEq, Repr

/-- The constraints R5 puts on CFG (R195). -/
abbrev Cfg.WellFormed (c : Cfg) : Prop :=
  (c.scopeSel = [] ∨ c.scopeSel = [0x00#8] ∨ c.scopeSel = [0x01#8]) ∧
  (1 ≤ c.nSlots ∧ c.nSlots ≤ 9) ∧ (1 ≤ c.slot ∧ c.slot ≤ c.nSlots) ∧
  6 ≤ c.freqMinLen ∧ 3 ≤ c.modeOfs ∧ c.modeOfs ≤ c.modeMinLen

/-! ### Free values: constants with no body -/

/-- What one call of `transceive` gives back: bytes, or `Unavailable` (spec/20_memory.md R50). -/
inductive Answer where
  | bytes (r : List Byte)
  | unavailable
  deriving DecidableEq, Repr, Inhabited

/-- Some image that meets R29 and R30: it shows only that such images exist, so that one can be left free. -/
def Table.sample : Table where
  edge := Vector.ofFn fun b => Vector.replicate 4 ⟨2 * b.val, 2 * b.val + 1⟩
  name := Vector.ofFn fun m =>
    Vector.replicate 2 [BitVec.ofNat 8 (0x30 + m.val / 10), BitVec.ofNat 8 (0x30 + m.val % 10), 0x3F]
  seg  := Vector.replicate 12 0

/-- A ROM image together with the passed check R29 asks for ("a model takes TBL together with a proof"). -/
structure RomImage where
  tbl     : Table := Table.sample
  wf      : tbl.WellFormed := by decide
  unnamed : tbl.UnnamedNames := by decide
  deriving Inhabited

/-- The configured ROM image: open (N2, D20), so a constant nothing is known of but R29 and, for codes 6 and 9,
R30 (DEDUCED, log entry 18; log entry 5). -/
opaque Config.rom : RomImage

/-- The configured ROUND_TIE: open, no default (D18). -/
opaque Config.roundTie : RoundTie

/-- FREE VALUE: what the transport answers to the `n`-th call, the frame handed over being `F`, where the state lists
no answer for it. Any byte list or `Unavailable` (R50, D29, U7); log entry 4. -/
opaque Config.transportAnswer : (n : Nat) → (F : List Byte) → Answer

end Sys2Proof
end

