-- ==== Sys2Proof/Syntax.lean ====
section
/-! DEFINITION. The 22 operations of CIVB (spec/30_encoding.md R77, spec/opcode_table.json), one constructor a row.
Operands are the integers and bytes the rules compute with (spec/00_scope.md R8); their port widths are checked by
`Instr.WellFormed` (log entry 8). -/

namespace Sys2Proof

/-- An operation with its operands, in the operand order of R77. -/
inductive Instr where
  -- BCD unit (spec/40_bcd.md)
  | pack2 (t u : Nat)
  | unpk2 (byte : Byte)
  | enckhz (v : Int)
  | dec5 (p : Field5)
  -- frame encoder (spec/41_frame_build.md)
  | bldfrq
  | bldmod
  | bldfix
  | bldsel (slot : Nat)
  | bldedg (seg slot : Nat) (lo hi : Int)
  -- frame decoder (spec/42_frame_decode.md)
  | decfrq (resp : List Byte)
  | decmod (resp : List Byte)
  -- table ROM (spec/43_table.md)
  | tlookup (band ent : Nat)
  | twhole (band : Nat)
  | tname (mode : Nat) (dflag : Bool)
  | tseg (band : Nat)
  -- classifier (spec/44_classify.md)
  | clsmod (mode : Nat) (dflag : Bool)
  | clsbnd (f10 : Nat)
  -- edge unit (spec/45_edge.md)
  | edgdef (band cls : Nat)
  | edgofs (f10 : Nat) (ofs wid : Int)
  -- sequencer (spec/46_sequencer.md)
  | query
  | applyd
  | applyo (ofs wid : Int)
  deriving DecidableEq, Repr

end Sys2Proof
end

