-- ==== Sys2Proof/Machine/State.lean ====
section
/-! DEFINITION. The state of CIVB as plain data (spec/10_state.md R20 to R33): the ROM, the configuration, the registers
SEQ, SNAP and ERR, the result ports, and the model's record of the two outside parties, the host and the transport. -/

namespace Sys2Proof.Machine

/-- SEQ, the sequencer state (R22, R150). -/
inductive Seq where
  | idle
  | querying
  | ready
  | applying
  | error
  deriving DecidableEq, Repr

/-- The five fault kinds of an OPERATION (spec/60_exceptions.md R170). They end an operation, not the machine: the fault
code goes to `r_fault` and the host goes on (R178). -/
inductive FaultKind where
  | transportUnavailable
  | malformedResponse
  | frequencyOutOfRange
  | valueOutOfRange
  | illegalOperation
  deriving DecidableEq, Repr

/-- A mode class, the result of CLSMOD (R130). -/
inductive ModeClass where
  | cw
  | digital
  | phone
  deriving DecidableEq, Repr

/-- SNAP, the snapshot register, 42 bits (R23). While `valid` is false the other fields are bits without meaning:
nothing reads them (R192); `State.sSnap` is the port's view. -/
structure Snap where
  valid : Bool
  f10   : BitVec 30
  mode  : BitVec 4
  dflag : Bool
  cls   : BitVec 2
  band  : BitVec 4
  deriving DecidableEq, Repr

/-- The result ports of R32 after an operation: its result, or the fault kind and nothing else ("a model returns a fault
and no result"). -/
inductive Result where
  /-- nothing returned since reset (log entry 10) -/
  | nothing
  /-- `r_fault` not 0 -/
  | fault (k : FaultKind)
  /-- `r_byte` (PACK2) -/
  | byte (b : Byte)
  /-- `r_t`, `r_u`, `r_ok` (UNPK2) -/
  | digits (t u : Nat) (ok : Bool)
  /-- `r_p` (ENCKHZ) -/
  | payload (p : Field5)
  /-- `r_f10` (DEC5, DECFRQ) -/
  | freq (f10 : Nat)
  /-- `r_frame`, `r_flen` (the BLD operations) -/
  | frame (f : List Byte)
  /-- `r_mode`, `r_dflag` (DECMOD) -/
  | mode (m : Nat) (d : Bool)
  /-- `r_lo`, `r_hi` (TLOOKUP, TWHOLE, EDGDEF, EDGOFS, APPLYD, APPLYO) -/
  | edges (lo hi : Int)
  /-- `r_name` (TNAME) -/
  | name (n : List Byte)
  /-- `r_seg` (TSEG) -/
  | segment (n : Nat)
  /-- `r_class` (CLSMOD) -/
  | cls (c : ModeClass)
  /-- `r_band` (CLSBND) -/
  | band (b : Nat)
  /-- the snapshot QUERY returns (R154) -/
  | snapshot (s : Snap)
  deriving DecidableEq, Repr

/-- Who handed a frame to the transport: CIVB, or the host between operations (spec/70_reset_and_hazards.md R203). -/
inductive Caller where
  | block
  | host
  deriving DecidableEq, Repr

/-- One call of `transceive`: the frame handed over, what came back (R202 b), and SEQ as the transport saw it (R150). -/
structure Call where
  caller : Caller
  frame  : List Byte
  answer : Answer
  seq    : Seq
  deriving DecidableEq, Repr

/-- What the host may do between operations (R203). -/
inductive HostMove where
  /-- issue an operation: `opsel` and the operand ports -/
  | issue (p : Ports)
  /-- apply reset -/
  | reset
  /-- use the fields of `s_snap` -/
  | readSnap
  /-- hand a whole frame to the transport itself -/
  | drive (frame : List Byte)
  deriving DecidableEq, Repr

/-- The machine and its two outside parties. The first five fields are all the state the spec gives CIVB (R20); `out` is
its result ports; the rest is the model's own (log entries 1, 4, 10, 11). -/
structure State where
  /-- TBL, the ROM image; no operation and no reset changes it (R27) -/
  tbl      : Table
  /-- CFG, the configuration record; no operation and no reset changes it (R31) -/
  cfg      : Cfg
  /-- SEQ (R22) -/
  seq      : Seq
  /-- SNAP (R23) -/
  snap     : Snap
  /-- ERR, the code of the fault that ended the last sequencer operation, or 0 (R24) -/
  err      : BitVec 3
  /-- the result ports (R32) -/
  out      : Result
  /-- every call of `transceive` so far, oldest first (R202 b) -/
  calls    : List Call
  /-- every fault returned so far, oldest first, never cleared (R202) -/
  faultLog : List FaultKind
  /-- the transport's coming answers, the next one first; beyond them its answers are free values (R50) -/
  answers  : List Answer
  /-- how many calls of `transceive` the transport has answered -/
  served   : Nat
  /-- the host's coming moves, the next one first (R202) -/
  pending  : List HostMove
  deriving DecidableEq, Repr

/-- Why the MODEL stops. No operation of CIVB stops it: an operation's own faults are `FaultKind`s. -/
inductive Fault where
  /-- Raised by `step` on `HostMove.readSnap` while SNAP.valid = 0: "a read of them while valid = 0 is a fault of the
  model, not a value" (R192; R23; D25; U11: "never zero, never any value"). Safe: the hardware would present bits nothing is known of. -/
  | snapReadWhileInvalid
  deriving DecidableEq, Repr

/-- Why the model gives a step no meaning. -/
inductive Refusal where
  /-- Raised by an arm of `exec` whose operation has no meaning yet; no arm is in that case. Safe. -/
  | notModelled (mnemonic : String)
  deriving DecidableEq, Repr

/-- SNAP after reset: `valid` = 0 (R33). The other fields are unspecified (R192); their bits are 0 here by
DESIGN CHOICE (log entry 3), unsafe. -/
def Snap.reset : Snap := { valid := false, f10 := 0, mode := 0, dflag := false, cls := 0, band := 0 }

/-- CIVB right after reset (R33, R190 to R193): SEQ = Idle, ERR = 0, SNAP.valid = 0, TBL and CFG as configured; nothing
returned, no call made, no answer scripted and no move pending (log entries 1, 4, 5, 6, 10, 11). -/
def State.reset : State where
  tbl      := Config.rom.tbl
  cfg      := { roundTie := Config.roundTie }
  seq      := .idle
  snap     := Snap.reset
  err      := 0
  out      := .nothing
  calls    := []
  faultLog := []
  answers  := []
  served   := 0
  pending  := []

end Sys2Proof.Machine
end

