-- ==== Sys2Proof/Machine/Operands.lean ====
section
/-! DEFINITION. Operand assembly: nibbles, decimal digits, packed-BCD bytes (spec/00_scope.md R6, R8; spec/20_memory.md
R41, R42; spec/30_encoding.md R73 to R75), and bytes counted from the end of a response (spec/20_memory.md R44;
spec/30_encoding.md R67). -/

namespace Sys2Proof.Machine

/-- `hi(b)`, the high nibble: the more significant decimal digit (R6, R41). -/
def hi (b : Byte) : Nat := b.toNat / 16

/-- `lo(b)`, the low nibble: the less significant decimal digit (R6, R41). -/
def lo (b : Byte) : Nat := b.toNat % 16

/-- `digit(v, k)`, the decimal digit of weight 10^k (R8). -/
def digit (v k : Nat) : Nat := v / 10 ^ k % 10

/-- `bcdval(b)`, used only where both nibbles are digits (R91, R73). -/
def bcdval (b : Byte) : Nat := 10 * hi b + lo b

/-- The packed-BCD byte of the digits `t` (tens, high nibble) and `u` (units, low nibble) (R41, R90). -/
def packDigits (t u : Nat) : Byte := BitVec.ofNat 8 (t * 16 + u)

/-- A one-byte BCD operand, 0 to 99: `pack2(n div 10, n mod 10)` (R73). -/
def bcdByte (n : Nat) : Byte := packDigits (n / 10) (n % 10)

/-- `resp[L-k]`, the byte `k` from the end of a response of length `L`; an index outside the response raises
MalformedResponse (R44, R67; `k = 0` only under a CFG that breaks R5, log entry 16). -/
def byteFromEnd (resp : List Byte) (k : Nat) : Except FaultKind Byte :=
  if k = 0 then .error .malformedResponse
  else match resp.reverse[k - 1]? with
    | some b => .ok b
    | none => .error .malformedResponse

end Sys2Proof.Machine
end

