-- ==== Sys2Proof/Machine/Flags.lean ====
section
/-! DEFINITION. The booleans of the block. CIVB has no condition codes (spec/10_state.md R26): these are data, the
results `ok` of UNPK2 (spec/40_bcd.md R91) and `dflag` of DECMOD (spec/30_encoding.md R76). -/

namespace Sys2Proof.Machine

/-- `isbcd(b)`, the validity bit `ok`: both nibbles are decimal digits (R91). -/
def isbcd (b : Byte) : Bool := decide (hi b ≤ 9) && decide (lo b ≤ 9)

/-- The digital flag of a data byte: bits 1 and 0 are not both 0 (R76, R111). -/
def dflagOf (d : Byte) : Bool := (d &&& 0x03#8) != 0#8

end Sys2Proof.Machine
end

