-- ==== Sys2Proof/Machine/Ops.lean ====
section
/-! DEFINITION. The shared operations over the state: presenting a result, taking a fault (the one fault entry of
spec/60_exceptions.md R178) and leaving it (R179), one call of `transceive` (spec/20_memory.md R50), the step-by-step
runs of the sequencer, reset, and the status ports. -/

namespace Sys2Proof.Machine

/-- What a step or a meaning answers. -/
abbrev StepResult := Host.Outcome State Fault Refusal

/-! ### Register encodings -/

/-- The 3-bit value of SEQ (R22). -/
def Seq.code : Seq → BitVec 3
  | .idle => 0
  | .querying => 1
  | .ready => 2
  | .applying => 3
  | .error => 4

/-- The fault code on `r_fault` and in ERR (R170). -/
def FaultKind.code : FaultKind → BitVec 3
  | .transportUnavailable => 1
  | .malformedResponse => 2
  | .frequencyOutOfRange => 3
  | .valueOutOfRange => 4
  | .illegalOperation => 5

/-- The 2-bit value of a mode class (R23, R130). -/
def ModeClass.code : ModeClass → BitVec 2
  | .cw => 0
  | .digital => 1
  | .phone => 2

/-! ### The status ports (R32), readable between operations (R203) -/

/-- `s_seq`. -/
def State.sSeq (s : State) : BitVec 3 := s.seq.code

/-- `s_err`. -/
def State.sErr (s : State) : BitVec 3 := s.err

/-- `s_snap` as the host may use it: its fields have no meaning while `valid` is 0 (R23, R192). -/
def State.sSnap (s : State) : Option Snap := if s.snap.valid then some s.snap else none

/-- `r_fault`: 0, or the code of the fault that ended the last operation (R32). Before the first operation after reset R32
gives it no value: 0 there is a DESIGN CHOICE, unsafe (log entry 10). -/
def Result.rFault : Result → BitVec 3
  | .nothing => 0
  | .fault k => k.code
  | _ => 0

/-! ### Results and faults -/

/-- The operation completes with result `r` on the result ports (R32). -/
def State.present (s : State) (r : Result) : State := { s with out := r }

/-- A fault of one of the 19 operations outside the sequencer: the code on `r_fault`, no result, no other state changed
(R178, R153). The fault log is the model's (R202). -/
def State.raise (s : State) (k : FaultKind) : State :=
  { s with out := .fault k, faultLog := s.faultLog ++ [k] }

/-- A fault of QUERY, APPLYD or APPLYO: ERR gets the code, SEQ becomes Error, SNAP is not written (R178). -/
def State.enterError (s : State) (k : FaultKind) : State :=
  { s.raise k with err := k.code, seq := .error }

/-- Step Q0, which is also the way out of Error (R179, R152): ERR is cleared and SEQ becomes Querying (R154, R151). -/
def State.beginSequencer (s : State) : State := { s with err := 0, seq := .querying }

/-- The end of an operation outside the sequencer: its result, or its fault (R11, R178). -/
def State.finish (s : State) (r : Except FaultKind Result) : State :=
  match r with
  | .ok v => s.present v
  | .error k => s.raise k

/-! ### The transport -/

/-- The answer the transport gives to the call that comes `k` calls from now, the frame handed over being `F`: the
scripted one, or a free value (R50, D29; log entry 4). -/
def State.answerAt (s : State) (k : Nat) (F : List Byte) : Answer :=
  match s.answers[k]? with
  | some a => a
  | none => Config.transportAnswer (s.served + k) F

/-- The state after one call of `transceive(F)` by `c`: the call is recorded with what came back and with SEQ as the
transport saw it, and one answer is used up (R50, R47, R150, R202 b). -/
def State.afterCall (s : State) (c : Caller) (F : List Byte) : State :=
  { s with
    calls   := s.calls ++ [{ caller := c, frame := F, answer := s.answerAt 0 F, seq := s.seq }]
    answers := s.answers.tail
    served  := s.served + 1 }

/-! ### Runs of sequencer steps -/

/-- How a run of sequencer steps ends: completed with a value, or at the step that raised a fault (R177, R178). Either way
with the state reached, every earlier step having taken full effect. -/
inductive Ran (α : Type) where
  | done (s : State) (a : α)
  | raised (s : State) (k : FaultKind)
  deriving Repr

/-- Go on after a completed run; after a fault no further step runs (R178). -/
def Ran.bind {α β : Type} (r : Ran α) (f : State → α → Ran β) : Ran β :=
  match r with
  | .done s a => f s a
  | .raised s k => .raised s k

/-- A step that computes a value or raises, and writes no state. -/
def compute {α : Type} (s : State) (e : Except FaultKind α) : Ran α :=
  match e with
  | .ok a => .done s a
  | .error k => .raised s k

/-- A step that calls `transceive(F)`: the bytes that came back, or TransportUnavailable (R154, R157, R171). -/
def transceive (s : State) (F : List Byte) : Ran (List Byte) :=
  match s.answerAt 0 F with
  | .bytes r => .done (s.afterCall .block F) r
  | .unavailable => .raised (s.afterCall .block F) .transportUnavailable

/-- The end of a sequencer operation: its result on the ports, or the fault entry (R154 to R157, R178). -/
def Ran.close (r : Ran Result) : State :=
  match r with
  | .done s v => s.present v
  | .raised s k => s.enterError k

/-! ### Reset -/

/-- Reset applied between operations: the registers take their reset values, TBL and CFG are not changed, nothing is left
on the result ports (R33, R190 to R193). The record of calls and faults is the model's and is kept (log entry 11). -/
def State.applyReset (s : State) : State :=
  { s with seq := .idle, err := 0, snap := Snap.reset, out := .nothing }

end Sys2Proof.Machine
end

