-- ==== Sys2Proof/Machine/Classify.lean ====
section
/-! DEFINITION. The band and mode classifier: CLSMOD, CLSBND (spec/44_classify.md). -/

namespace Sys2Proof.Machine

/-- The mode codes that are Digital without the flag: RTTY, RTTY-R, PSK, PSK-R (R130). -/
def digitalModes : List Nat := [4, 8, 12, 13]

/-- The mode codes that are CW: CW, CW-R (R130). -/
def cwModes : List Nat := [3, 7]

/-- `clsmod(mode, dflag)`: the digital test first, then CW, else Phone (R130). -/
def clsmod (mode : Nat) (dflag : Bool) : Except FaultKind ModeClass :=
  if mode > 13 then .error .illegalOperation
  else if dflag || digitalModes.contains mode then .ok .digital
  else if cwModes.contains mode then .ok .cw
  else .ok .phone

/-- The scan of CLSBND over the whole-band entries still to look at, the first of them that of band `b`: the first whose
upper edge, in units of 10 Hz, is at or above `f10` (R131, R9). -/
def scanBands (f10 : Nat) : (b : Nat) → List Edge → Except FaultKind Nat
  | _, [] => .error .frequencyOutOfRange
  | b, e :: rest => if e.hi * 100 ≥ f10 then .ok b else scanBands f10 (b + 1) rest

/-- The twelve whole-band entries in ascending band order (R28). -/
def wholeBands (t : Table) : List Edge := t.edge.toList.map (·[3])

/-- `clsbnd(f10)`: bounded by the twelve bands, never clamped (R131, R199). -/
def clsbnd (t : Table) (f10 : Nat) : Except FaultKind Nat := scanBands f10 0 (wholeBands t)

/-- CLSMOD (R130). -/
def execClsmod (mode : Nat) (dflag : Bool) (s : State) : StepResult :=
  .next (s.finish ((clsmod mode dflag).map .cls))

/-- CLSBND (R131). -/
def execClsbnd (f10 : Nat) (s : State) : StepResult :=
  .next (s.finish ((clsbnd s.tbl f10).map .band))

end Sys2Proof.Machine
end

