-- ==== Sys2Proof/Machine/TableRom.lean ====
section
/-! DEFINITION. The table ROM's accessors: TLOOKUP, TWHOLE, TNAME, TSEG (spec/43_table.md). An index outside its table
raises IllegalOperation (spec/20_memory.md R44). -/

namespace Sys2Proof.Machine

/-- `tlookup(band, ent)`: the entry, unmodified; a band above 11 does not exist (R120). An `ent` above 3 fits no port
(log entry 15). -/
def tlookup (t : Table) (band ent : Nat) : Except FaultKind Edge :=
  if hb : band < 12 then
    if he : ent < 4 then .ok t.edge[band][ent] else .error .illegalOperation
  else .error .illegalOperation

/-- `twhole(band)`: `tlookup(band, 3)` (R121). -/
def twhole (t : Table) (band : Nat) : Except FaultKind Edge := tlookup t band 3

/-- `tname(mode, dflag)` (R122). -/
def tname (t : Table) (mode : Nat) (dflag : Bool) : Except FaultKind (List Byte) :=
  if h : mode < 14 then
    .ok (if dflag then t.name[mode][1] else t.name[mode][0])
  else .error .illegalOperation

/-- `tseg(band)` (R123). -/
def tseg (t : Table) (band : Nat) : Except FaultKind Nat :=
  if h : band < 12 then .ok t.seg[band] else .error .illegalOperation

/-- An edge pair of the ROM on `r_lo`, `r_hi` (R32). -/
def edgeResult (e : Edge) : Result := .edges e.lo e.hi

/-- TLOOKUP (R120). -/
def execTlookup (band ent : Nat) (s : State) : StepResult :=
  .next (s.finish ((tlookup s.tbl band ent).map edgeResult))

/-- TWHOLE (R121). -/
def execTwhole (band : Nat) (s : State) : StepResult :=
  .next (s.finish ((twhole s.tbl band).map edgeResult))

/-- TNAME (R122). -/
def execTname (mode : Nat) (dflag : Bool) (s : State) : StepResult :=
  .next (s.finish ((tname s.tbl mode dflag).map .name))

/-- TSEG (R123). -/
def execTseg (band : Nat) (s : State) : StepResult :=
  .next (s.finish ((tseg s.tbl band).map .segment))

end Sys2Proof.Machine
end

