-- ==== Sys2Proof/Machine/Edge.lean ====
section
/-! DEFINITION. The edge-frequency arithmetic unit: EDGDEF, EDGOFS (spec/45_edge.md). Neither checks its result against
0 to 99999; that check is ENCKHZ's and BLDEDG's. -/

namespace Sys2Proof.Machine

/-- `edgdef(band, class)`: the ROM's entry unmodified; class 3 is not a mode class (R140). -/
def edgdef (t : Table) (band cls : Nat) : Except FaultKind Edge :=
  if band > 11 ∨ cls > 2 then .error .illegalOperation else tlookup t band cls

/-- `round_khz(f10)`: f10/100 rounded to an integer number of kHz, the tie as ROUND_TIE says (R141). -/
def roundKhz (tie : RoundTie) (f10 : Nat) : Nat :=
  let q := f10 / 100
  let r := f10 % 100
  if r < 50 then q
  else if r > 50 then q + 1
  else match tie with
    | .halfUp => q + 1
    | .halfEven => if q % 2 = 0 then q else q + 1

/-- `edgofs(f10, ofs, wid)`: lower = rounded frequency minus offset, upper = lower plus width, over the integers
(R141). -/
def edgofs (c : Cfg) (f10 : Nat) (ofs wid : Int) : Int × Int :=
  let lower : Int := roundKhz c.roundTie f10 - ofs
  (lower, lower + wid)

/-- EDGDEF (R140). -/
def execEdgdef (band cls : Nat) (s : State) : StepResult :=
  .next (s.finish ((edgdef s.tbl band cls).map edgeResult))

/-- EDGOFS (R141). -/
def execEdgofs (f10 : Nat) (ofs wid : Int) (s : State) : StepResult :=
  .next (s.present (.edges (edgofs s.cfg f10 ofs wid).1 (edgofs s.cfg f10 ofs wid).2))

end Sys2Proof.Machine
end

