-- ==== Sys2Proof/Machine/Bcd.lean ====
section
/-! DEFINITION. The BCD unit: PACK2, UNPK2, ENCKHZ, DEC5 (spec/40_bcd.md). -/

namespace Sys2Proof.Machine

/-- `pack2(t, u)` (R90). -/
def pack2 (t u : Nat) : Except FaultKind Byte :=
  if t > 9 ∨ u > 9 then .error .valueOutOfRange else .ok (packDigits t u)

/-- PACK2 (R90). -/
def execPack2 (t u : Nat) (s : State) : StepResult :=
  .next (s.finish ((pack2 t u).map .byte))

/-- UNPK2: the two nibbles and `ok`; total on all 256 bytes (R91). -/
def execUnpk2 (b : Byte) (s : State) : StepResult :=
  .next (s.present (.digits (hi b) (lo b) (isbcd b)))

/-- `enckhz(v)`: an integer number of kHz to the five bytes of an edge field (R92, R74). -/
def enckhz (v : Int) : Except FaultKind Field5 :=
  if v < 0 ∨ v > 99999 then .error .valueOutOfRange
  else
    let n := v.toNat
    .ok { p0 := 0x00                                -- 10 Hz, 1 Hz: always zero
          p1 := packDigits (digit n 0) 0            -- 1 kHz, 100 Hz nibble zero
          p2 := packDigits (digit n 2) (digit n 1)  -- 100 kHz, 10 kHz
          p3 := packDigits (digit n 4) (digit n 3)  -- 10 MHz, 1 MHz
          p4 := 0x00 }                              -- 1 GHz, 100 MHz: always zero

/-- ENCKHZ (R92). -/
def execEnckhz (v : Int) (s : State) : StepResult :=
  .next (s.finish ((enckhz v).map .payload))

/-- `dec5(p)`: five frequency bytes to a frequency in 10 Hz units; the 1 Hz digit is checked and dropped (R93, R75, C1). -/
def dec5 (p : Field5) : Except FaultKind Nat :=
  if p.bytes.all isbcd then
    .ok (hi p.p4 * 10 ^ 8 + lo p.p4 * 10 ^ 7 + hi p.p3 * 10 ^ 6 + lo p.p3 * 10 ^ 5 + hi p.p2 * 10 ^ 4 +
      lo p.p2 * 10 ^ 3 + hi p.p1 * 10 ^ 2 + lo p.p1 * 10 + hi p.p0)
  else .error .malformedResponse

/-- DEC5 (R93). -/
def execDec5 (p : Field5) (s : State) : StepResult :=
  .next (s.finish ((dec5 p).map .freq))

end Sys2Proof.Machine
end

