-- ==== Sys2Proof/Machine/Build.lean ====
section
/-! DEFINITION. The frame encoder: BLDFRQ, BLDMOD, BLDFIX, BLDSEL, BLDEDG (spec/41_frame_build.md; formats R60 to R66 of
spec/30_encoding.md; the fixed bytes of spec/00_scope.md R5). -/

namespace Sys2Proof.Machine

/-- PRE, the preamble byte, sent twice (R5, R60). -/
def preByte : Byte := 0xFE
/-- EOM, the terminator byte (R5, R60). -/
def eomByte : Byte := 0xFD
/-- DST, the destination address (R5, R60). -/
def dstByte : Byte := 0x98
/-- SRC, the controller address (R5, R60). -/
def srcByte : Byte := 0xE0
/-- CMD_FRQ, read frequency (R5, R62). -/
def cmdFrq : Byte := 0x25
/-- CMD_MOD, read mode (R5, R63). -/
def cmdMod : Byte := 0x26
/-- CMD_SCOPE, the scope command (R5, R64 to R66). -/
def cmdScope : Byte := 0x27
/-- SUB_FIX, set fixed mode on/off (R5, R64). -/
def subFix : Byte := 0x14
/-- SUB_SEL, select edge-set slot (R5, R65). -/
def subSel : Byte := 0x16
/-- SUB_EDG, write edge-set frequencies (R5, R66). -/
def subEdg : Byte := 0x1E
/-- FIX_ON, the data byte of the fixed-mode frame (R5, D13). -/
def fixOn : Byte := 0x01

/-- A frame: the envelope of R60 around a command code and what follows it. -/
def envelope (cmd : Byte) (rest : List Byte) : List Byte :=
  [preByte, preByte, dstByte, srcByte, cmd] ++ rest ++ [eomByte]

/-- `bldfrq()` (R100, R62). -/
def bldfrq : List Byte := envelope cmdFrq []

/-- `bldmod()` (R101, R63). -/
def bldmod : List Byte := envelope cmdMod []

/-- `bldfix()` (R102, R64). -/
def bldfix (c : Cfg) : List Byte := envelope cmdScope ([subFix] ++ c.scopeSel ++ [fixOn])

/-- Whether a slot is one of 1 to N_SLOTS (R103, R104). -/
def slotOk (c : Cfg) (slot : Nat) : Bool := decide (1 ≤ slot) && decide (slot ≤ c.nSlots)

/-- `bldsel(slot)` (R103, R65). -/
def bldsel (c : Cfg) (slot : Nat) : Except FaultKind (List Byte) :=
  if slotOk c slot then
    .ok (envelope cmdScope ([subSel] ++ c.scopeSel ++ [BitVec.ofNat 8 slot]))
  else .error .valueOutOfRange

/-- `bldedg(seg, slot, lo, hi)` (R104, R66). The two edges are not compared with each other (D19). -/
def bldedg (c : Cfg) (seg slot : Nat) (lower upper : Int) : Except FaultKind (List Byte) :=
  if seg > 99 then .error .valueOutOfRange
  else if !slotOk c slot then .error .valueOutOfRange
  else
    (enckhz lower).bind fun l5 =>
    (enckhz upper).bind fun u5 =>
    .ok (envelope cmdScope ([subEdg, bcdByte seg, BitVec.ofNat 8 slot] ++ l5.bytes ++ u5.bytes))

/-- BLDFRQ (R100). -/
def execBldfrq (s : State) : StepResult := .next (s.present (.frame bldfrq))

/-- BLDMOD (R101). -/
def execBldmod (s : State) : StepResult := .next (s.present (.frame bldmod))

/-- BLDFIX (R102). -/
def execBldfix (s : State) : StepResult := .next (s.present (.frame (bldfix s.cfg)))

/-- BLDSEL (R103). -/
def execBldsel (slot : Nat) (s : State) : StepResult :=
  .next (s.finish ((bldsel s.cfg slot).map .frame))

/-- BLDEDG (R104). -/
def execBldedg (seg slot : Nat) (lower upper : Int) (s : State) : StepResult :=
  .next (s.finish ((bldedg s.cfg seg slot lower upper).map .frame))

end Sys2Proof.Machine
end

