-- ==== Sys2Proof/Machine/FrameDecode.lean ====
section
/-! DEFINITION. The frame decoder: DECFRQ, DECMOD (spec/42_frame_decode.md). Bytes are found from the end of the
response; everything else in it is ignored (spec/30_encoding.md R67; R112). -/

namespace Sys2Proof.Machine

/-- The last byte received is the terminator EOM (R67, D7). -/
def endsWithEom (resp : List Byte) : Bool := resp.getLast? == some eomByte

/-- The five bytes before the terminator, `resp[L-6]` to `resp[L-2]`, the first of them the least significant pair
(R67, R110). -/
def fieldBeforeEom (resp : List Byte) : Except FaultKind Field5 :=
  (byteFromEnd resp 6).bind fun p0 =>
  (byteFromEnd resp 5).bind fun p1 =>
  (byteFromEnd resp 4).bind fun p2 =>
  (byteFromEnd resp 3).bind fun p3 =>
  (byteFromEnd resp 2).bind fun p4 =>
  .ok ⟨p0, p1, p2, p3, p4⟩

/-- `decfrq(resp)` (R110): length, terminator, then the five bytes before the terminator. -/
def decfrq (c : Cfg) (resp : List Byte) : Except FaultKind Nat :=
  if resp.length < c.freqMinLen then .error .malformedResponse
  else if !endsWithEom resp then .error .malformedResponse
  else (fieldBeforeEom resp).bind dec5

/-- The mode byte and the data byte to mode code and digital flag; a mode byte that is not decimal, or a code above 13,
raises (R111, R79). -/
def modeAndFlag (m d : Byte) : Except FaultKind (Nat × Bool) :=
  if !isbcd m then .error .malformedResponse
  else if bcdval m > 13 then .error .malformedResponse
  else .ok (bcdval m, dflagOf d)

/-- `decmod(resp)` (R111): length, terminator, then mode byte `resp[L-MODE_OFS]` and data byte `resp[L-MODE_OFS+1]`. -/
def decmod (c : Cfg) (resp : List Byte) : Except FaultKind (Nat × Bool) :=
  if resp.length < c.modeMinLen then .error .malformedResponse
  else if !endsWithEom resp then .error .malformedResponse
  else
    (byteFromEnd resp c.modeOfs).bind fun m =>
    (byteFromEnd resp (c.modeOfs - 1)).bind fun d =>
    modeAndFlag m d

/-- DECFRQ (R110). -/
def execDecfrq (resp : List Byte) (s : State) : StepResult :=
  .next (s.finish ((decfrq s.cfg resp).map .freq))

/-- DECMOD (R111). -/
def execDecmod (resp : List Byte) (s : State) : StepResult :=
  .next (s.finish ((decmod s.cfg resp).map fun r => .mode r.1 r.2))

end Sys2Proof.Machine
end

