-- ==== Sys2Proof/Machine/Sequencer.lean ====
section
/-! DEFINITION. The sequencer: QUERY, APPLYD, APPLYO (spec/46_sequencer.md). Each is one operation made of the steps Q0 to
Q6 and T0 to T5; a fault at a step ends it there (spec/60_exceptions.md R177, R178). -/

namespace Sys2Proof.Machine

/-- Step Q6: the whole of SNAP is replaced and SEQ becomes Ready (R154, R23). -/
def State.storeSnap (s : State) (f m : Nat) (d : Bool) (c : ModeClass) (b : Nat) : State :=
  { s with
    snap := { valid := true, f10 := BitVec.ofNat 30 f, mode := BitVec.ofNat 4 m, dflag := d, cls := c.code,
              band := BitVec.ofNat 4 b }
    seq  := .ready }

/-- Step T0: SEQ becomes Applying (R157, R151). -/
def State.beginTail (s : State) : State := { s with seq := .applying }

/-- Step T5: SEQ becomes Ready (R157, R151). -/
def State.endTail (s : State) : State := { s with seq := .ready }

/-- `query_steps()`, shared by the three operations (R154). -/
def querySteps (s : State) : Ran Unit :=
  let s0 := s.beginSequencer                                            -- Q0
  (transceive s0 bldfrq).bind fun s1 r1 =>                              -- Q1
  (compute s1 (decfrq s1.cfg r1)).bind fun s2 f =>                      -- Q2
  (transceive s2 bldmod).bind fun s3 r2 =>                              -- Q3
  (compute s3 (decmod s3.cfg r2)).bind fun s4 md =>                     -- Q4
  (compute s4 (clsmod md.1 md.2)).bind fun s5 c =>                      -- Q5
  (compute s5 (clsbnd s5.tbl f)).bind fun s6 b =>
  .done (s6.storeSnap f md.1 md.2 c b) ()                               -- Q6

/-- Step T1: the three setup frames, all built before the first is sent (R157, D27). -/
def setupFrames (s : State) (lower upper : Int) : Except FaultKind (List Byte × List Byte × List Byte) :=
  (tseg s.tbl s.snap.band.toNat).bind fun seg =>
  (bldsel s.cfg s.cfg.slot).bind fun f2 =>
  (bldedg s.cfg seg s.cfg.slot lower upper).bind fun f3 =>
  .ok (bldfix s.cfg, f2, f3)

/-- `apply_tail(lo, hi)`: each frame is sent and its response drained and discarded (R157, R48). -/
def applyTail (s : State) (lower upper : Int) : Ran Unit :=
  let s0 := s.beginTail                                                 -- T0
  (compute s0 (setupFrames s0 lower upper)).bind fun s1 fs =>           -- T1
  (transceive s1 fs.1).bind fun s2 _ =>                                 -- T2
  (transceive s2 fs.2.1).bind fun s3 _ =>                               -- T3
  (transceive s3 fs.2.2).bind fun s4 _ =>                               -- T4
  .done s4.endTail ()                                                   -- T5

/-- An apply: the query steps, the edges computed from the fresh snapshot, the tail, the edges returned
(R155, R156). -/
def applyWith (edges : State → Except FaultKind (Int × Int)) (s : State) : State :=
  ((querySteps s).bind fun s1 _ =>
   (compute s1 (edges s1)).bind fun s2 e =>
   (applyTail s2 e.1 e.2).bind fun s3 _ =>
   .done s3 (.edges e.1 e.2)).close

/-- QUERY: the new snapshot is stored and returned (R154). -/
def execQuery (s : State) : StepResult :=
  .next ((querySteps s).bind fun s1 _ => .done s1 (.snapshot s1.snap)).close

/-- APPLYD: the default edges of the band and class just found (R155). -/
def execApplyd (s : State) : StepResult :=
  .next (applyWith (fun t =>
    (edgdef t.tbl t.snap.band.toNat t.snap.cls.toNat).map fun e => ((e.lo : Int), (e.hi : Int))) s)

/-- APPLYO: the edges at an offset from the frequency just found (R156). -/
def execApplyo (ofs wid : Int) (s : State) : StepResult :=
  .next (applyWith (fun t => .ok (edgofs t.cfg t.snap.f10.toNat ofs wid)) s)

end Sys2Proof.Machine
end

