-- ==== Sys2Proof/Machine/Dispatch.lean ====
section
/-! DEFINITION. One arm per operation (spec/30_encoding.md R77): each calls its own meaning. -/

namespace Sys2Proof.Machine

def exec (i : Instr) (s : State) : Host.Outcome State Fault Refusal :=
  match i with
  -- BCD unit
  | .pack2 t u => Sys2Proof.Machine.execPack2 t u s
  | .unpk2 b => Sys2Proof.Machine.execUnpk2 b s
  | .enckhz v => Sys2Proof.Machine.execEnckhz v s
  | .dec5 p => Sys2Proof.Machine.execDec5 p s
  -- frame encoder
  | .bldfrq => Sys2Proof.Machine.execBldfrq s
  | .bldmod => Sys2Proof.Machine.execBldmod s
  | .bldfix => Sys2Proof.Machine.execBldfix s
  | .bldsel slot => Sys2Proof.Machine.execBldsel slot s
  | .bldedg seg slot lower upper => Sys2Proof.Machine.execBldedg seg slot lower upper s
  -- frame decoder
  | .decfrq resp => Sys2Proof.Machine.execDecfrq resp s
  | .decmod resp => Sys2Proof.Machine.execDecmod resp s
  -- table ROM
  | .tlookup band ent => Sys2Proof.Machine.execTlookup band ent s
  | .twhole band => Sys2Proof.Machine.execTwhole band s
  | .tname mode dflag => Sys2Proof.Machine.execTname mode dflag s
  | .tseg band => Sys2Proof.Machine.execTseg band s
  -- classifier
  | .clsmod mode dflag => Sys2Proof.Machine.execClsmod mode dflag s
  | .clsbnd f10 => Sys2Proof.Machine.execClsbnd f10 s
  -- edge unit
  | .edgdef band cls => Sys2Proof.Machine.execEdgdef band cls s
  | .edgofs f10 ofs wid => Sys2Proof.Machine.execEdgofs f10 ofs wid s
  -- sequencer
  | .query => Sys2Proof.Machine.execQuery s
  | .applyd => Sys2Proof.Machine.execApplyd s
  | .applyo ofs wid => Sys2Proof.Machine.execApplyo ofs wid s

end Sys2Proof.Machine
end

