-- ==== Sys2Proof/WellFormed.lean ====
section
/-! DEFINITION. When an operation can be presented on the ports: every operand fits the width R32 gives its port
(spec/10_state.md R32). The ranges the rules test (`band > 11` and the like) are NOT checks here: a port can carry a
value outside them, and the operation then raises the fault its rule names. -/

namespace Sys2Proof

/-- `v` is a value of a `w`-bit two's complement port (R32). -/
abbrev FitsSigned (w : Nat) (v : Int) : Prop := -(2 ^ (w - 1) : Int) ≤ v ∧ v < (2 ^ (w - 1) : Int)

/-- Every operand fits its port (R32, opcode_table.json `source_fields`). -/
abbrev Instr.WellFormed (i : Instr) : Prop :=
  match i with
  | .pack2 t u => t < 16 ∧ u < 16
  | .unpk2 _ => True
  | .enckhz v => FitsSigned 34 v
  | .dec5 _ => True
  | .bldfrq => True
  | .bldmod => True
  | .bldfix => True
  | .bldsel slot => slot < 16
  | .bldedg seg slot lo hi => (seg < 128 ∧ slot < 16) ∧ FitsSigned 34 lo ∧ FitsSigned 34 hi
  | .decfrq _ => True
  | .decmod _ => True
  | .tlookup band ent => band < 16 ∧ ent < 4
  | .twhole band => band < 16
  | .tname mode _ => mode < 16
  | .tseg band => band < 16
  | .clsmod mode _ => mode < 16
  | .clsbnd f10 => f10 < 2 ^ 30
  | .edgdef band cls => band < 16 ∧ cls < 4
  | .edgofs f10 ofs wid => f10 < 2 ^ 30 ∧ FitsSigned 32 ofs ∧ FitsSigned 32 wid
  | .query => True
  | .applyd => True
  | .applyo ofs wid => FitsSigned 32 ofs ∧ FitsSigned 32 wid

end Sys2Proof
end

