-- ==== Sys2Proof/Decode.lean ====
section
/-! DEFINITION. Operation-select decoding: the ports of R32 to an operation, or the rejection of a reserved code
(spec/30_encoding.md R77, R78), and the encoder written from the same table. -/

namespace Sys2Proof

/-- Why the decoder rejects: the code is reserved (R78). -/
inductive Rejected where
  | reservedOpsel (code : BitVec 8)
  deriving DecidableEq, Repr

/-- One port bit as a digital flag (R76, R23). -/
def flagOf (b : BitVec 1) : Bool := b == 1#1

/-- A digital flag as one port bit. -/
def flagBit (d : Bool) : BitVec 1 := if d then 1#1 else 0#1

/-- The operation the host presents (R77). The code is looked at before any operand (R177); operand ports an operation
does not name are ignored (log entry 20). -/
def decode (p : Ports) : Except Rejected Instr :=
  match p.opsel with
  | 0x01#8 => .ok (.pack2 p.a_t.toNat p.a_u.toNat)
  | 0x02#8 => .ok (.unpk2 p.a_byte)
  | 0x03#8 => .ok (.enckhz p.a_v.toInt)
  | 0x04#8 => .ok (.dec5 p.a_p)
  | 0x10#8 => .ok .bldfrq
  | 0x11#8 => .ok .bldmod
  | 0x12#8 => .ok .bldfix
  | 0x13#8 => .ok (.bldsel p.a_slot.toNat)
  | 0x14#8 => .ok (.bldedg p.a_seg.toNat p.a_slot.toNat p.a_lo.toInt p.a_hi.toInt)
  | 0x18#8 => .ok (.decfrq p.a_resp)
  | 0x19#8 => .ok (.decmod p.a_resp)
  | 0x20#8 => .ok (.tlookup p.a_band.toNat p.a_ent.toNat)
  | 0x21#8 => .ok (.twhole p.a_band.toNat)
  | 0x22#8 => .ok (.tname p.a_mode.toNat (flagOf p.a_dflag))
  | 0x23#8 => .ok (.tseg p.a_band.toNat)
  | 0x28#8 => .ok (.clsmod p.a_mode.toNat (flagOf p.a_dflag))
  | 0x29#8 => .ok (.clsbnd p.a_f10.toNat)
  | 0x30#8 => .ok (.edgdef p.a_band.toNat p.a_ent.toNat)
  | 0x31#8 => .ok (.edgofs p.a_f10.toNat p.a_ofs.toInt p.a_wid.toInt)
  | 0x40#8 => .ok .query
  | 0x41#8 => .ok .applyd
  | 0x42#8 => .ok (.applyo p.a_ofs.toInt p.a_wid.toInt)
  | c => .error (.reservedOpsel c)

/-- The ports that present an operation: its code and its operands, every other port 0 (R77, R32). -/
def encode : Instr → Ports
  | .pack2 t u => { opsel := 0x01, a_t := BitVec.ofNat 4 t, a_u := BitVec.ofNat 4 u }
  | .unpk2 b => { opsel := 0x02, a_byte := b }
  | .enckhz v => { opsel := 0x03, a_v := BitVec.ofInt 34 v }
  | .dec5 p => { opsel := 0x04, a_p := p }
  | .bldfrq => { opsel := 0x10 }
  | .bldmod => { opsel := 0x11 }
  | .bldfix => { opsel := 0x12 }
  | .bldsel slot => { opsel := 0x13, a_slot := BitVec.ofNat 4 slot }
  | .bldedg seg slot lo hi =>
    { opsel := 0x14, a_seg := BitVec.ofNat 7 seg, a_slot := BitVec.ofNat 4 slot,
      a_lo := BitVec.ofInt 34 lo, a_hi := BitVec.ofInt 34 hi }
  | .decfrq resp => { opsel := 0x18, a_resp := resp }
  | .decmod resp => { opsel := 0x19, a_resp := resp }
  | .tlookup band ent => { opsel := 0x20, a_band := BitVec.ofNat 4 band, a_ent := BitVec.ofNat 2 ent }
  | .twhole band => { opsel := 0x21, a_band := BitVec.ofNat 4 band }
  | .tname mode d => { opsel := 0x22, a_mode := BitVec.ofNat 4 mode, a_dflag := flagBit d }
  | .tseg band => { opsel := 0x23, a_band := BitVec.ofNat 4 band }
  | .clsmod mode d => { opsel := 0x28, a_mode := BitVec.ofNat 4 mode, a_dflag := flagBit d }
  | .clsbnd f10 => { opsel := 0x29, a_f10 := BitVec.ofNat 30 f10 }
  | .edgdef band cls => { opsel := 0x30, a_band := BitVec.ofNat 4 band, a_ent := BitVec.ofNat 2 cls }
  | .edgofs f10 ofs wid =>
    { opsel := 0x31, a_f10 := BitVec.ofNat 30 f10, a_ofs := BitVec.ofInt 32 ofs, a_wid := BitVec.ofInt 32 wid }
  | .query => { opsel := 0x40 }
  | .applyd => { opsel := 0x41 }
  | .applyo ofs wid => { opsel := 0x42, a_ofs := BitVec.ofInt 32 ofs, a_wid := BitVec.ofInt 32 wid }

/-- The reserved codes, range by range as R78 lists them. -/
def reservedOpsel (c : BitVec 8) : Bool :=
  let n := c.toNat
  n = 0x00 || (0x05 ≤ n && n ≤ 0x0F) || (0x15 ≤ n && n ≤ 0x17) || (0x1A ≤ n && n ≤ 0x1F) ||
  (0x24 ≤ n && n ≤ 0x27) || (0x2A ≤ n && n ≤ 0x2F) || (0x32 ≤ n && n ≤ 0x3F) || (0x43 ≤ n && n ≤ 0xFF)

/-- The ports an opcode-table word stands for: the low `nbits` bits of `w` on `opsel`, every operand port 0
(log entry 1). -/
def portsOfWord (nbits w : Nat) : Ports := { opsel := BitVec.ofNat 8 (w % 2 ^ nbits) }

/-- The operation the decoder reads from an opcode-table word. -/
def decodeTableWord (nbits w : Nat) : Option Instr := (decode (portsOfWord nbits w)).toOption

end Sys2Proof
end

