-- ==== Sys2Proof/Machine/HostMoves.lean ====
section
/-! DEFINITION. What step needs of the host's moves (spec/70_reset_and_hazards.md R202, R203): taking the next one, and the
host's own effect where the move is not an operation. -/

namespace Sys2Proof.Machine

/-- The host uses the fields of `s_snap`: nothing changes, and while `valid` is 0 the model stops, as R192, R23, D25
and U11 say it must (R203). -/
def hostReadsSnap (s : State) : StepResult :=
  if s.snap.valid then .next s else .fault .snapReadWhileInvalid

/-- The host hands a frame to the transport itself: CIVB is not involved, one answer is used up (R203, R196). -/
def hostDrives (F : List Byte) (s : State) : State := s.afterCall .host F

/-- A reserved operation-select code: IllegalOperation, and no other state changed (R78, R175, R178). -/
def rejectOpsel (s : State) : State := s.raise .illegalOperation

/-- `s` with the host's very next move the presentation of an opcode-table word (log entry 1). -/
def presentWord (s : State) (nbits w : Nat) : State :=
  { s with pending := .issue (portsOfWord nbits w) :: s.pending }

end Sys2Proof.Machine
end

