-- ==== Sys2Proof/Machine/Step.lean ====
section
/-! DEFINITION. One step of a run (spec/70_reset_and_hazards.md R202): the host's next move, taken to completion. With no
move pending the block waits (R193). -/

namespace Sys2Proof.Machine

/-- One step: the next move leaves the list, and what it asks for is done. -/
def step (s : State) : Host.Outcome State Fault Refusal :=
  match s.pending with
  | [] => .next s
  | .issue p :: rest =>
    match decode p with
    | .ok i => exec i { s with pending := rest }
    | .error _ => .next (rejectOpsel { s with pending := rest })
  | .reset :: rest => .next (State.applyReset { s with pending := rest })
  | .readSnap :: rest => hostReadsSnap { s with pending := rest }
  | .drive F :: rest => .next (hostDrives F { s with pending := rest })

/-- `s` with the instruction of an opcode-table word presented next: it is the first of the host's pending moves, its
operand ports 0 (log entry 1). -/
def State.withFetchWord (s : State) (nbits w : Nat) : State := presentWord s nbits w

end Sys2Proof.Machine
end

