-- ==== Sys2Proof/Safety.lean ====
section
/-! DEFINITION. What counts as a good state, a good record of calls and a good result, in the terms claims use. -/

namespace Sys2Proof.Machine

/-- The three operations that call the transport and touch SEQ, SNAP and ERR (spec/46_sequencer.md). -/
def isSequencer : Instr → Bool
  | .query => true
  | .applyd => true
  | .applyo _ _ => true
  | _ => false

/-- Presenting the code `c` presents the operation that `f` reads from the operand ports (R77, R32). -/
def PresentedBy (c : BitVec 8) (f : Ports → Instr) : Prop := ∀ p : Ports, p.opsel = c → decode p = .ok (f p)

/-! ### Between operations -/

/-- SEQ, ERR and SNAP.valid fit together as R150 says of a machine between operations: never inside an operation; Idle
before any query; Ready with no fault and a snapshot; Error with the code of one of the four faults a sequencer operation
can end in, a ValueOutOfRange only after this operation's own snapshot (R178). -/
def State.RegsAgree (s : State) : Prop :=
  match s.seq with
  | .idle => s.err = 0 ∧ s.snap.valid = false
  | .ready => s.err = 0 ∧ s.snap.valid = true
  | .error => (1 ≤ s.err.toNat ∧ s.err.toNat ≤ 4) ∧ (s.err = 4 → s.snap.valid = true)
  | .querying => False
  | .applying => False

/-- A stored snapshot is in the ranges of R23, and its class and band are those the classifier gives its mode, flag and
frequency (R154 Q5). -/
def State.SnapLegal (s : State) : Prop :=
  s.snap.f10.toNat ≤ 999999999 ∧ s.snap.mode.toNat ≤ 13 ∧
  (∃ c, clsmod s.snap.mode.toNat s.snap.dflag = .ok c ∧ s.snap.cls = c.code) ∧
  s.snap.band.toNat ≤ 11 ∧ clsbnd s.tbl s.snap.f10.toNat = .ok s.snap.band.toNat

/-- The invariant of a machine between operations (R150, R23). -/
def State.Inv (s : State) : Prop := s.RegsAgree ∧ (s.snap.valid = true → s.SnapLegal)

/-! ### What the transport is given -/

/-- The shape of every frame CIVB builds: two preamble bytes, the two addresses, the terminator last, and no byte between
the addresses and the terminator equal to 0xFD or 0xFE (R60, R105). -/
def FrameShape (F : List Byte) : Prop :=
  ∃ body, F = [0xFE, 0xFE, 0x98, 0xE0] ++ body ++ [0xFD] ∧ body ≠ [] ∧ ∀ b ∈ body, b ≠ 0xFD#8 ∧ b ≠ 0xFE#8

/-- A call CIVB itself makes: a request frame with SEQ = Querying, or one of the three setup frames for the configured
slot with SEQ = Applying (R150, R158, R157), in the shape of R105. -/
def BlockCallOk (c : Cfg) (k : Call) : Prop :=
  FrameShape k.frame ∧
  ((k.seq = .querying ∧ (k.frame = bldfrq ∨ k.frame = bldmod)) ∨
   (k.seq = .applying ∧
    (k.frame = bldfix c ∨ bldsel c c.slot = .ok k.frame ∨
     ∃ seg lower upper, bldedg c seg c.slot lower upper = .ok k.frame)))

/-- Every call on record that CIVB itself made was such a call (R80, R158). -/
def State.CallsOk (s : State) : Prop := ∀ k ∈ s.calls, k.caller = .block → BlockCallOk s.cfg k

/-! ### Results -/

/-- A result fits the result ports of R32: every value within its port's width. -/
def Result.FitsPorts : Result → Prop
  | .nothing => True
  | .fault _ => True
  | .byte _ => True
  | .digits t u _ => t < 16 ∧ u < 16
  | .payload _ => True
  | .freq f => f < 2 ^ 30
  | .frame f => f.length ≤ 19
  | .mode m _ => m < 16
  | .edges lower upper => FitsSigned 34 lower ∧ FitsSigned 34 upper
  | .name n => n.length ≤ 8
  | .segment n => n < 128
  | .cls _ => True
  | .band b => b < 16
  | .snapshot _ => True

/-! ### The premises under which a query, and an apply, goes through -/

/-- The transport answers the two requests with `r1` and `r2`, which decode to `f` and to `(m, d)`, of class `c` and band
`b` (R154, steps Q1 to Q5). -/
structure QueryGoesThrough (s : State) (r1 r2 : List Byte) (f m : Nat) (d : Bool) (c : ModeClass) (b : Nat) : Prop where
  q1 : s.answerAt 0 bldfrq = .bytes r1
  q2 : decfrq s.cfg r1 = .ok f
  q3 : s.answerAt 1 bldmod = .bytes r2
  q4 : decmod s.cfg r2 = .ok (m, d)
  q5 : clsmod m d = .ok c
  q6 : clsbnd s.tbl f = .ok b

/-- The snapshot step Q6 stores (R154). -/
def freshSnap (f m : Nat) (d : Bool) (c : ModeClass) (b : Nat) : Snap :=
  { valid := true, f10 := BitVec.ofNat 30 f, mode := BitVec.ofNat 4 m, dflag := d, cls := c.code,
    band := BitVec.ofNat 4 b }

/-- The record of the frequency request (R154 Q1). -/
def frqCall (a : Answer) : Call := { caller := .block, frame := bldfrq, answer := a, seq := .querying }

/-- The record of the mode request (R154 Q3). -/
def modCall (a : Answer) : Call := { caller := .block, frame := bldmod, answer := a, seq := .querying }

/-- The record of the two calls of a query that goes through (R158). -/
def queryCalls (r1 r2 : List Byte) : List Call := [frqCall (.bytes r1), modCall (.bytes r2)]

/-- The record of one call of an apply tail (R157). -/
def tailCall (F : List Byte) (a : Answer) : Call := { caller := .block, frame := F, answer := a, seq := .applying }

/-- The edges an apply works with, the snapshot just taken having frequency `f`, class `c` and band `b` (R155, R156). -/
def applyEdges (i : Instr) (s : State) (f : Nat) (c : ModeClass) (b : Nat) : Option (Int × Int) :=
  match i with
  | .applyd => (edgdef s.tbl b c.code.toNat).toOption.map fun e => ((e.lo : Int), (e.hi : Int))
  | .applyo ofs wid => some (edgofs s.cfg f ofs wid)
  | _ => none

/-- Step T1 of an apply goes through: the select frame is `F2` and the edge-write frame, for the segment of band `b`, is
`F3` (R157). -/
structure SetupBuilds (s : State) (b : Nat) (lower upper : Int) (F2 F3 : List Byte) : Prop where
  sel : bldsel s.cfg s.cfg.slot = .ok F2
  edg : ∃ seg, tseg s.tbl b = .ok seg ∧ bldedg s.cfg seg s.cfg.slot lower upper = .ok F3

/-! ### The states operations end in, written out field by field -/

/-- An operation outside the sequencer completed with result `r`: it is on the result ports, nothing else changed
(R32, R153). -/
def completedWith (s : State) (r : Result) : State := { s with out := r }

/-- The answer `r` to an operation outside the sequencer, issued in `s`, is fault `k` on `r_fault` and no result, with no
state of CIVB changed (R178). What the model's own fault log gains is left open here. -/
def EndsInFault (s : State) (k : FaultKind) (r : StepResult) : Prop :=
  ∃ t, r = .next t ∧ t.out = .fault k ∧ t = { s with out := t.out, faultLog := t.faultLog }

/-- An operation outside the sequencer ended in fault `k`: the fault on the result ports and in the log, nothing else
changed (R178). -/
def endedInFault (s : State) (k : FaultKind) : State :=
  { s with out := .fault k, faultLog := s.faultLog ++ [k] }

/-- The calls `cs` were made: they are on record and their answers are used up (R202 b). -/
def madeCalls (s : State) (cs : List Call) : State :=
  { s with calls := s.calls ++ cs, answers := s.answers.drop cs.length, served := s.served + cs.length }

/-- A sequencer operation ended in fault `k` after the calls `cs`: ERR = code, SEQ = Error (R178). -/
def endedInError (s : State) (k : FaultKind) (cs : List Call) : State :=
  { endedInFault (madeCalls s cs) k with err := k.code, seq := .error }

/-- A sequencer operation completed with result `r`, the snapshot `sn` stored and the calls `cs` made: ERR = 0,
SEQ = Ready (R154, R157). -/
def endedReady (s : State) (r : Result) (sn : Snap) (cs : List Call) : State :=
  { madeCalls s cs with out := r, snap := sn, err := 0, seq := .ready }

end Sys2Proof.Machine
end

