-- ==== Sys2Proof/Certificates/Slice0/Obligations.lean ====
section
/-! DEFINITION. The statements about CIVB that are put to the provers. Where a statement names the record of calls or the
fault log, these are the model's own records of what R202 lets be observed (log entry 11). -/

open Sys2Proof Sys2Proof.Machine

/-! ### Decoding and encoding -/

/-- R77, R32: presenting an operation and decoding the ports gives the operation back, every operand at every value its
port admits. -/
def Obligations.DecodeOfEncode : Prop :=
  ∀ i : Instr, i.WellFormed → decode (encode i) = .ok i

/-- R32: whatever the host presents, the operation decoded fits its ports. -/
def Obligations.DecodedIsWellFormed : Prop :=
  ∀ (p : Ports) (i : Instr), decode p = .ok i → i.WellFormed

/-- R77, R78: a code decodes exactly if it is none of the reserved ones. -/
def Obligations.DecodeRejectsExactlyReserved : Prop :=
  ∀ p : Ports, (∃ i, decode p = .ok i) ↔
    ¬ (p.opsel.toNat = 0x00 ∨ (0x05 ≤ p.opsel.toNat ∧ p.opsel.toNat ≤ 0x0F) ∨
       (0x15 ≤ p.opsel.toNat ∧ p.opsel.toNat ≤ 0x17) ∨ (0x1A ≤ p.opsel.toNat ∧ p.opsel.toNat ≤ 0x1F) ∨
       (0x24 ≤ p.opsel.toNat ∧ p.opsel.toNat ≤ 0x27) ∨ (0x2A ≤ p.opsel.toNat ∧ p.opsel.toNat ≤ 0x2F) ∨
       (0x32 ≤ p.opsel.toNat ∧ p.opsel.toNat ≤ 0x3F) ∨ (0x43 ≤ p.opsel.toNat ∧ p.opsel.toNat ≤ 0xFF))

/-- R77: one code of each family, with operands on the ports R32 names. -/
def Obligations.DecodedWordsOfEachFamily : Prop :=
  decode { opsel := 0x01, a_t := 1, a_u := 2 } = .ok (.pack2 1 2) ∧
  decode { opsel := 0x14, a_seg := 6, a_slot := 1, a_lo := 14100, a_hi := -1 } = .ok (.bldedg 6 1 14100 (-1)) ∧
  decode { opsel := 0x18, a_resp := [0x00, 0xFD] } = .ok (.decfrq [0x00, 0xFD]) ∧
  decode { opsel := 0x22, a_mode := 6, a_dflag := 1 } = .ok (.tname 6 true) ∧
  decode { opsel := 0x29, a_f10 := 1419550 } = .ok (.clsbnd 1419550) ∧
  decode { opsel := 0x30, a_band := 6, a_ent := 2 } = .ok (.edgdef 6 2) ∧
  decode { opsel := 0x42, a_ofs := 1, a_wid := -3 } = .ok (.applyo 1 (-3))

/-! ### The step -/

/-- R11, R202: a step runs the operation the host presents, on the state from which that move has been taken. -/
def Obligations.StepRunsPresentedOperation : Prop :=
  ∀ (s : State) (p : Ports) (rest : List HostMove) (i : Instr),
    s.pending = .issue p :: rest → decode p = .ok i → step s = exec i { s with pending := rest }

/-- R78: presenting a reserved code raises IllegalOperation and changes no state of CIVB. -/
def Obligations.ReservedOpselRaisesIllegalOperation : Prop :=
  ∀ (s : State) (p : Ports) (rest : List HostMove),
    s.pending = .issue p :: rest →
    p.opsel.toNat ∉ [0x01, 0x02, 0x03, 0x04, 0x10, 0x11, 0x12, 0x13, 0x14, 0x18, 0x19, 0x20, 0x21, 0x22, 0x23, 0x28,
      0x29, 0x30, 0x31, 0x40, 0x41, 0x42] →
    EndsInFault { s with pending := rest } .illegalOperation (step s)

/-- R193: with nothing pending the block waits. -/
def Obligations.StepWaitsForTheHost : Prop :=
  ∀ s : State, s.pending = [] → step s = .next s

/-- R192, R23: the host's use of the snapshot's fields stops the model while they have no meaning, and only then. -/
def Obligations.SnapReadStopsExactlyWhileInvalid : Prop :=
  ∀ (s : State) (rest : List HostMove), s.pending = .readSnap :: rest →
    (s.snap.valid = false → step s = .fault .snapReadWhileInvalid) ∧
    (s.snap.valid = true → step s = .next { s with pending := rest })

/-- R203: the host's own call of the transport leaves CIVB alone; the call is on record (log entry 21). -/
def Obligations.HostCallLeavesBlockAlone : Prop :=
  ∀ (s : State) (F : List Byte) (rest : List HostMove), s.pending = .drive F :: rest →
    step s = .next (madeCalls { s with pending := rest }
      [{ caller := .host, frame := F, answer := s.answerAt 0 F, seq := s.seq }])

/-- R203: no host move stops the model but a use of the snapshot before there is one. -/
def Obligations.StepStopsOnlyOnInvalidSnapRead : Prop :=
  ∀ s : State, (∃ t, step s = .next t) ∨
    (step s = .fault .snapReadWhileInvalid ∧ s.snap.valid = false ∧ s.pending.head? = some .readSnap)

/-! ### Reset -/

/-- R191: SEQ is Idle and ERR is 0 after reset. -/
def Obligations.ResetLeavesIdleAndNoFault : Prop :=
  State.reset.seq = .idle ∧ State.reset.err = 0

/-- R192, R193: after reset there is no snapshot, and TBL and CFG are the configured ones and well-formed. -/
def Obligations.ResetLeavesConfiguredRom : Prop :=
  State.reset.sSnap = none ∧ State.reset.tbl = Config.rom.tbl ∧ State.reset.tbl.WellFormed ∧
  State.reset.cfg.WellFormed

/-- R33: reset applied between operations gives SEQ = Idle, ERR = 0, SNAP.valid = 0 and keeps TBL and CFG. -/
def Obligations.ResetMoveRestoresRegisters : Prop :=
  ∀ (s : State) (rest : List HostMove), s.pending = .reset :: rest →
    ∃ t, step s = .next t ∧ t.seq = .idle ∧ t.err = 0 ∧ t.snap.valid = false ∧ t.tbl = s.tbl ∧ t.cfg = s.cfg ∧
      t.pending = rest

/-! ### BCD unit -/

/-- R90: PACK2. -/
def Obligations.Pack2PacksDigitsOrRaises : Prop :=
  PresentedBy 0x01 (fun p => .pack2 p.a_t.toNat p.a_u.toNat) ∧
  ∀ (s : State) (t u : Nat),
    (t ≤ 9 → u ≤ 9 → exec (.pack2 t u) s = .next (completedWith s (.byte (BitVec.ofNat 8 (t * 16 + u))))) ∧
    (9 < t ∨ 9 < u → EndsInFault s .valueOutOfRange (exec (.pack2 t u) s))

/-- R91: UNPK2, on every byte. -/
def Obligations.Unpk2SplitsEveryByte : Prop :=
  PresentedBy 0x02 (fun p => .unpk2 p.a_byte) ∧
  ∀ (s : State) (b : Byte),
    exec (.unpk2 b) s = .next (completedWith s
      (.digits (b.toNat / 16) (b.toNat % 16) (decide (b.toNat / 16 ≤ 9) && decide (b.toNat % 16 ≤ 9))))

/-- R91: unpacking a packed pair of digits gives the pair back. -/
def Obligations.Unpk2OfPack2 : Prop :=
  ∀ (s : State) (t u : Nat), t ≤ 9 → u ≤ 9 →
    ∃ b, exec (.pack2 t u) s = .next (completedWith s (.byte b)) ∧
      exec (.unpk2 b) s = .next (completedWith s (.digits t u true))

/-- R92: ENCKHZ; the digits of v are v/10^k mod 10. -/
def Obligations.EnckhzEncodesOrRaises : Prop :=
  PresentedBy 0x03 (fun p => .enckhz p.a_v.toInt) ∧
  ∀ (s : State) (v : Int),
    (∀ n : Nat, v = n → n ≤ 99999 →
      exec (.enckhz v) s = .next (completedWith s (.payload
        ⟨0x00, BitVec.ofNat 8 (n % 10 * 16), BitVec.ofNat 8 (n / 100 % 10 * 16 + n / 10 % 10),
         BitVec.ofNat 8 (n / 10000 % 10 * 16 + n / 1000 % 10), 0x00⟩))) ∧
    (v < 0 ∨ 99999 < v → EndsInFault s .valueOutOfRange (exec (.enckhz v) s))

/-- R93: DEC5, with its nine weights; the tenth nibble is checked and dropped. -/
def Obligations.Dec5WeighsNibblesOrRaises : Prop :=
  PresentedBy 0x04 (fun p => .dec5 p.a_p) ∧
  ∀ (s : State) (p : Field5),
    ((∀ b ∈ [p.p0, p.p1, p.p2, p.p3, p.p4], b.toNat / 16 ≤ 9 ∧ b.toNat % 16 ≤ 9) →
      exec (.dec5 p) s = .next (completedWith s (.freq
        (p.p4.toNat / 16 * 100000000 + p.p4.toNat % 16 * 10000000 + p.p3.toNat / 16 * 1000000 +
         p.p3.toNat % 16 * 100000 + p.p2.toNat / 16 * 10000 + p.p2.toNat % 16 * 1000 + p.p1.toNat / 16 * 100 +
         p.p1.toNat % 16 * 10 + p.p0.toNat / 16)))) ∧
    ((∃ b ∈ [p.p0, p.p1, p.p2, p.p3, p.p4], 9 < b.toNat / 16 ∨ 9 < b.toNat % 16) →
      EndsInFault s .malformedResponse (exec (.dec5 p) s))

/-- R83, R93: decoding an encoded kHz value gives the value back, in 10 Hz units, and so does decoding any response that
ends with it. -/
def Obligations.KhzRoundTrip : Prop :=
  ∀ (s : State) (v : Nat), v ≤ 99999 →
    ∃ p, exec (.enckhz v) s = .next (completedWith s (.payload p)) ∧
      exec (.dec5 p) s = .next (completedWith s (.freq (100 * v))) ∧
      ∀ X : List Byte, s.cfg.freqMinLen ≤ X.length + 6 →
        exec (.decfrq (X ++ p.bytes ++ [0xFD])) s = .next (completedWith s (.freq (100 * v)))

/-- R94: PACK2 and ENCKHZ are injective on their domains, UNPK2 is a bijection between bytes and nibble pairs, and DEC5 is
not injective. -/
def Obligations.BcdUnitIsInjective : Prop :=
  (∀ t u t' u' : Nat, t ≤ 9 → u ≤ 9 → t' ≤ 9 → u' ≤ 9 → pack2 t u = pack2 t' u' → t = t' ∧ u = u') ∧
  (∀ v w : Int, 0 ≤ v → v ≤ 99999 → 0 ≤ w → w ≤ 99999 → enckhz v = enckhz w → v = w) ∧
  (∀ (s : State) (a b : Byte), exec (.unpk2 a) s = exec (.unpk2 b) s → a = b) ∧
  (∀ (s : State) (t u : Nat), t < 16 → u < 16 →
    ∃ b ok, exec (.unpk2 b) s = .next (completedWith s (.digits t u ok))) ∧
  (∃ p q f, p ≠ q ∧ dec5 p = .ok f ∧ dec5 q = .ok f)

/-! ### Frame encoder -/

/-- R100, R101: the two request frames. -/
def Obligations.RequestFrames : Prop :=
  PresentedBy 0x10 (fun _ => .bldfrq) ∧
  PresentedBy 0x11 (fun _ => .bldmod) ∧
  ∀ s : State,
    exec .bldfrq s = .next (completedWith s (.frame [0xFE, 0xFE, 0x98, 0xE0, 0x25, 0xFD])) ∧
    exec .bldmod s = .next (completedWith s (.frame [0xFE, 0xFE, 0x98, 0xE0, 0x26, 0xFD]))

/-- R102: the fixed-mode frame. -/
def Obligations.FixedModeFrame : Prop :=
  PresentedBy 0x12 (fun _ => .bldfix) ∧
  ∀ s : State,
    exec .bldfix s = .next (completedWith s
      (.frame ([0xFE, 0xFE, 0x98, 0xE0, 0x27, 0x14] ++ s.cfg.scopeSel ++ [0x01, 0xFD])))

/-- R103: the edge-set select frame, or ValueOutOfRange for a slot outside 1 to N_SLOTS. -/
def Obligations.SelectFrameOrRaises : Prop :=
  PresentedBy 0x13 (fun p => .bldsel p.a_slot.toNat) ∧
  ∀ (s : State) (slot : Nat),
    (1 ≤ slot → slot ≤ s.cfg.nSlots → exec (.bldsel slot) s = .next (completedWith s
      (.frame ([0xFE, 0xFE, 0x98, 0xE0, 0x27, 0x16] ++ s.cfg.scopeSel ++ [BitVec.ofNat 8 slot, 0xFD])))) ∧
    (slot < 1 ∨ s.cfg.nSlots < slot → EndsInFault s .valueOutOfRange (exec (.bldsel slot) s))

/-- R104: the 19-byte edge-write frame, or ValueOutOfRange from any of the four checks; the two edges are not compared. -/
def Obligations.EdgeWriteFrameOrRaises : Prop :=
  PresentedBy 0x14 (fun p => .bldedg p.a_seg.toNat p.a_slot.toNat p.a_lo.toInt p.a_hi.toInt) ∧
  ∀ (s : State) (seg slot : Nat) (lower upper : Int),
    (∀ l u : Nat, lower = l → upper = u → seg ≤ 99 → 1 ≤ slot → slot ≤ s.cfg.nSlots → l ≤ 99999 → u ≤ 99999 →
      exec (.bldedg seg slot lower upper) s = .next (completedWith s (.frame
        [0xFE, 0xFE, 0x98, 0xE0, 0x27, 0x1E, BitVec.ofNat 8 (seg / 10 * 16 + seg % 10), BitVec.ofNat 8 slot,
         0x00, BitVec.ofNat 8 (l % 10 * 16), BitVec.ofNat 8 (l / 100 % 10 * 16 + l / 10 % 10),
         BitVec.ofNat 8 (l / 10000 % 10 * 16 + l / 1000 % 10), 0x00,
         0x00, BitVec.ofNat 8 (u % 10 * 16), BitVec.ofNat 8 (u / 100 % 10 * 16 + u / 10 % 10),
         BitVec.ofNat 8 (u / 10000 % 10 * 16 + u / 1000 % 10), 0x00, 0xFD]))) ∧
    (99 < seg ∨ slot < 1 ∨ s.cfg.nSlots < slot ∨ lower < 0 ∨ 99999 < lower ∨ upper < 0 ∨ 99999 < upper →
      EndsInFault s .valueOutOfRange (exec (.bldedg seg slot lower upper) s))

/-- R105, R61: every frame built under a configuration that meets R5 has the envelope, no 0xFD or 0xFE inside it, and one
of the four lengths. -/
def Obligations.BuiltFramesHaveEnvelope : Prop :=
  ∀ (i : Instr) (s t : State) (F : List Byte), s.cfg.WellFormed → exec i s = .next t → t.out = .frame F →
    FrameShape F ∧ (F.length = 6 ∨ F.length = 8 ∨ F.length = 9 ∨ F.length = 19)

/-! ### Frame decoder -/

/-- R110: DECFRQ; `p` is the five bytes before the terminator. -/
def Obligations.DecfrqDecodesOrRaises : Prop :=
  PresentedBy 0x18 (fun p => .decfrq p.a_resp) ∧
  ∀ (s : State) (resp : List Byte),
    (∀ (X : List Byte) (p : Field5), resp = X ++ [p.p0, p.p1, p.p2, p.p3, p.p4, 0xFD] →
      s.cfg.freqMinLen ≤ resp.length →
      ((∀ b ∈ [p.p0, p.p1, p.p2, p.p3, p.p4], b.toNat / 16 ≤ 9 ∧ b.toNat % 16 ≤ 9) →
        exec (.decfrq resp) s = .next (completedWith s (.freq
          (p.p4.toNat / 16 * 100000000 + p.p4.toNat % 16 * 10000000 + p.p3.toNat / 16 * 1000000 +
           p.p3.toNat % 16 * 100000 + p.p2.toNat / 16 * 10000 + p.p2.toNat % 16 * 1000 + p.p1.toNat / 16 * 100 +
           p.p1.toNat % 16 * 10 + p.p0.toNat / 16)))) ∧
      ((∃ b ∈ [p.p0, p.p1, p.p2, p.p3, p.p4], 9 < b.toNat / 16 ∨ 9 < b.toNat % 16) →
        EndsInFault s .malformedResponse (exec (.decfrq resp) s))) ∧
    (resp.length < s.cfg.freqMinLen → EndsInFault s .malformedResponse (exec (.decfrq resp) s)) ∧
    (resp.getLast? ≠ some 0xFD → EndsInFault s .malformedResponse (exec (.decfrq resp) s))

/-- R111: DECMOD; `m` is the byte MODE_OFS from the end and `d` the byte after it. -/
def Obligations.DecmodDecodesOrRaises : Prop :=
  PresentedBy 0x19 (fun p => .decmod p.a_resp) ∧
  ∀ (s : State) (resp : List Byte),
    (∀ (X Y : List Byte) (m d : Byte), resp = X ++ [m, d] ++ Y ++ [0xFD] → Y.length + 3 = s.cfg.modeOfs →
      s.cfg.modeMinLen ≤ resp.length →
      (m.toNat / 16 ≤ 9 → m.toNat % 16 ≤ 9 → 10 * (m.toNat / 16) + m.toNat % 16 ≤ 13 →
        exec (.decmod resp) s = .next (completedWith s
          (.mode (10 * (m.toNat / 16) + m.toNat % 16) (decide (d &&& 0x03 ≠ 0))))) ∧
      (9 < m.toNat / 16 ∨ 9 < m.toNat % 16 ∨ 13 < 10 * (m.toNat / 16) + m.toNat % 16 →
        EndsInFault s .malformedResponse (exec (.decmod resp) s))) ∧
    (resp.length < s.cfg.modeMinLen → EndsInFault s .malformedResponse (exec (.decmod resp) s)) ∧
    (resp.getLast? ≠ some 0xFD → EndsInFault s .malformedResponse (exec (.decmod resp) s))

/-- R112: what precedes the bytes the decoders read does not matter: two responses long enough that end alike decode
alike, so an echo before the reply changes nothing. -/
def Obligations.DecodersReadOnlyTheEnd : Prop :=
  ∀ (s : State) (X X' E : List Byte), s.cfg.WellFormed →
    (6 ≤ E.length → s.cfg.freqMinLen ≤ E.length → exec (.decfrq (X ++ E)) s = exec (.decfrq (X' ++ E)) s) ∧
    (s.cfg.modeMinLen ≤ E.length → exec (.decmod (X ++ E)) s = exec (.decmod (X' ++ E)) s)

/-! ### Table ROM -/

/-- R120: TLOOKUP. -/
def Obligations.TlookupReadsEntryOrRaises : Prop :=
  PresentedBy 0x20 (fun p => .tlookup p.a_band.toNat p.a_ent.toNat) ∧
  ∀ s : State,
    (∀ (b : Fin 12) (e : Fin 4), exec (.tlookup b e) s = .next (completedWith s
      (.edges s.tbl.edge[b][e].lo s.tbl.edge[b][e].hi))) ∧
    (∀ band ent : Nat, 11 < band → EndsInFault s .illegalOperation (exec (.tlookup band ent) s))

/-- R121: TWHOLE. -/
def Obligations.TwholeReadsWholeBandOrRaises : Prop :=
  PresentedBy 0x21 (fun p => .twhole p.a_band.toNat) ∧
  ∀ s : State,
    (∀ b : Fin 12, exec (.twhole b) s = .next (completedWith s (.edges s.tbl.edge[b][3].lo s.tbl.edge[b][3].hi))) ∧
    (∀ band : Nat, 11 < band → EndsInFault s .illegalOperation (exec (.twhole band) s))

/-- R122: TNAME. -/
def Obligations.TnameReadsNameOrRaises : Prop :=
  PresentedBy 0x22 (fun p => .tname p.a_mode.toNat (p.a_dflag == 1)) ∧
  ∀ s : State,
    (∀ m : Fin 14, exec (.tname m false) s = .next (completedWith s (.name s.tbl.name[m][0])) ∧
      exec (.tname m true) s = .next (completedWith s (.name s.tbl.name[m][1]))) ∧
    (∀ (mode : Nat) (d : Bool), 13 < mode → EndsInFault s .illegalOperation (exec (.tname mode d) s))

/-- R30: the unnamed codes 6 and 9 of the configured image have the names "06?" and "09?". -/
def Obligations.UnnamedModesOfConfiguredRom : Prop :=
  ∀ (s : State) (d : Bool), s.tbl = Config.rom.tbl →
    exec (.tname 6 d) s = .next (completedWith s (.name [0x30, 0x36, 0x3F])) ∧
    exec (.tname 9 d) s = .next (completedWith s (.name [0x30, 0x39, 0x3F]))

/-- R123: TSEG. -/
def Obligations.TsegReadsSegmentOrRaises : Prop :=
  PresentedBy 0x23 (fun p => .tseg p.a_band.toNat) ∧
  ∀ s : State,
    (∀ b : Fin 12, exec (.tseg b) s = .next (completedWith s (.segment s.tbl.seg[b]))) ∧
    (∀ band : Nat, 11 < band → EndsInFault s .illegalOperation (exec (.tseg band) s))

/-! ### Classifier -/

/-- R130: CLSMOD; the digital test comes before the CW test. -/
def Obligations.ClsmodClassifiesOrRaises : Prop :=
  PresentedBy 0x28 (fun p => .clsmod p.a_mode.toNat (p.a_dflag == 1)) ∧
  (ModeClass.cw.code = 0 ∧ ModeClass.digital.code = 1 ∧ ModeClass.phone.code = 2) ∧
  ∀ (s : State) (mode : Nat) (d : Bool),
    (mode ≤ 13 → exec (.clsmod mode d) s = .next (completedWith s (.cls
      (if d = true ∨ mode = 4 ∨ mode = 8 ∨ mode = 12 ∨ mode = 13 then .digital
       else if mode = 3 ∨ mode = 7 then .cw else .phone)))) ∧
    (13 < mode → EndsInFault s .illegalOperation (exec (.clsmod mode d) s))

/-- R131: CLSBND answers the first band whose whole-band upper edge is at or above the frequency, on any image. -/
def Obligations.ClsbndFindsFirstBandOrRaises : Prop :=
  PresentedBy 0x29 (fun p => .clsbnd p.a_f10.toNat) ∧
  ∀ (s : State) (f10 : Nat),
    (∀ b : Fin 12, f10 ≤ s.tbl.edge[b][3].hi * 100 → (∀ b' : Fin 12, b' < b → s.tbl.edge[b'][3].hi * 100 < f10) →
      exec (.clsbnd f10) s = .next (completedWith s (.band b))) ∧
    ((∀ b : Fin 12, s.tbl.edge[b][3].hi * 100 < f10) →
      EndsInFault s .frequencyOutOfRange (exec (.clsbnd f10) s))

/-- R29, R131: on a well-formed image a frequency inside a whole band, its upper edge included, is classified into that
band, and only a frequency above the last band's upper edge faults. -/
def Obligations.ClsbndFindsContainingBand : Prop :=
  ∀ (s : State) (f10 : Nat), s.tbl.WellFormed →
    (∀ b : Fin 12, s.tbl.edge[b][3].lo * 100 ≤ f10 → f10 ≤ s.tbl.edge[b][3].hi * 100 →
      exec (.clsbnd f10) s = .next (completedWith s (.band b))) ∧
    (EndsInFault s .frequencyOutOfRange (exec (.clsbnd f10) s) ↔ s.tbl.edge[11][3].hi * 100 < f10)

/-! ### Edge unit -/

/-- R140: EDGDEF. -/
def Obligations.EdgdefReadsEntryOrRaises : Prop :=
  PresentedBy 0x30 (fun p => .edgdef p.a_band.toNat p.a_ent.toNat) ∧
  ∀ s : State,
    (∀ (b : Fin 12) (c : Fin 3), exec (.edgdef b c) s = .next (completedWith s
      (.edges s.tbl.edge[b][c.val].lo s.tbl.edge[b][c.val].hi))) ∧
    (∀ band cls : Nat, 11 < band ∨ 2 < cls →
      EndsInFault s .illegalOperation (exec (.edgdef band cls) s))

/-- R141: EDGOFS, the frequency being `q` kHz and `r` hundredths. -/
def Obligations.EdgofsRoundsAndOffsets : Prop :=
  PresentedBy 0x31 (fun p => .edgofs p.a_f10.toNat p.a_ofs.toInt p.a_wid.toInt) ∧
  ∀ (s : State) (q r : Nat) (ofs wid : Int), r < 100 →
    let k : Nat := if r < 50 then q else if 50 < r then q + 1
      else if s.cfg.roundTie = .halfUp then q + 1 else if q % 2 = 0 then q else q + 1
    exec (.edgofs (100 * q + r) ofs wid) s = .next (completedWith s (.edges (k - ofs) (k - ofs + wid)))

/-! ### Sequencer -/

/-- R154: QUERY, on an answering transport. -/
def Obligations.QueryStoresAndReturnsSnapshot : Prop :=
  PresentedBy 0x40 (fun _ => .query) ∧
  ∀ (s : State) (r1 r2 : List Byte) (f m : Nat) (d : Bool) (c : ModeClass) (b : Nat),
    QueryGoesThrough s r1 r2 f m d c b →
    exec .query s = .next (endedReady s (.snapshot (freshSnap f m d c b)) (freshSnap f m d c b) (queryCalls r1 r2))

/-- R155, R157: APPLYD, on an answering transport. -/
def Obligations.ApplydSendsDefaultEdges : Prop :=
  PresentedBy 0x41 (fun _ => .applyd) ∧
  ∀ (s : State) (r1 r2 x1 x2 x3 F2 F3 : List Byte) (f m : Nat) (d : Bool) (c : ModeClass) (b : Nat) (e : Edge),
    QueryGoesThrough s r1 r2 f m d c b → edgdef s.tbl b c.code.toNat = .ok e → SetupBuilds s b e.lo e.hi F2 F3 →
    s.answerAt 2 (bldfix s.cfg) = .bytes x1 → s.answerAt 3 F2 = .bytes x2 → s.answerAt 4 F3 = .bytes x3 →
    exec .applyd s = .next (endedReady s (.edges e.lo e.hi) (freshSnap f m d c b) (queryCalls r1 r2 ++
      [tailCall (bldfix s.cfg) (.bytes x1), tailCall F2 (.bytes x2), tailCall F3 (.bytes x3)]))

/-- R156, R157: APPLYO, on an answering transport. -/
def Obligations.ApplyoSendsOffsetEdges : Prop :=
  PresentedBy 0x42 (fun p => .applyo p.a_ofs.toInt p.a_wid.toInt) ∧
  ∀ (s : State) (r1 r2 x1 x2 x3 F2 F3 : List Byte) (f m : Nat) (d : Bool) (c : ModeClass) (b : Nat)
    (ofs wid lower upper : Int),
    QueryGoesThrough s r1 r2 f m d c b → edgofs s.cfg f ofs wid = (lower, upper) →
    SetupBuilds s b lower upper F2 F3 →
    s.answerAt 2 (bldfix s.cfg) = .bytes x1 → s.answerAt 3 F2 = .bytes x2 → s.answerAt 4 F3 = .bytes x3 →
    exec (.applyo ofs wid) s = .next (endedReady s (.edges lower upper) (freshSnap f m d c b) (queryCalls r1 r2 ++
      [tailCall (bldfix s.cfg) (.bytes x1), tailCall F2 (.bytes x2), tailCall F3 (.bytes x3)]))

/-- R177, R178: where the query steps of any of the three operations fault, in the order of the steps, and the state
each leaves: SNAP as it was, the calls made up to there. -/
def Obligations.QueryStepFaults : Prop :=
  ∀ (i : Instr) (s : State), isSequencer i = true →
    (s.answerAt 0 bldfrq = .unavailable →
      exec i s = .next (endedInError s .transportUnavailable [frqCall .unavailable])) ∧
    (∀ r1, s.answerAt 0 bldfrq = .bytes r1 →
      (decfrq s.cfg r1 = .error .malformedResponse →
        exec i s = .next (endedInError s .malformedResponse [frqCall (.bytes r1)])) ∧
      (∀ f, decfrq s.cfg r1 = .ok f →
        (s.answerAt 1 bldmod = .unavailable →
          exec i s = .next (endedInError s .transportUnavailable [frqCall (.bytes r1), modCall .unavailable])) ∧
        (∀ r2, s.answerAt 1 bldmod = .bytes r2 →
          (decmod s.cfg r2 = .error .malformedResponse →
            exec i s = .next (endedInError s .malformedResponse (queryCalls r1 r2))) ∧
          (∀ m d, decmod s.cfg r2 = .ok (m, d) → clsbnd s.tbl f = .error .frequencyOutOfRange →
            exec i s = .next (endedInError s .frequencyOutOfRange (queryCalls r1 r2))))))

/-- R157, R178, C3: an apply whose edges cannot be encoded raises ValueOutOfRange at T1: the two request frames have been
sent, none of the setup frames, and the fresh snapshot stays. -/
def Obligations.ApplyRejectsEdgesBeforeSetup : Prop :=
  ∀ (i : Instr) (s : State) (r1 r2 : List Byte) (f m : Nat) (d : Bool) (c : ModeClass) (b : Nat) (lower upper : Int),
    QueryGoesThrough s r1 r2 f m d c b → applyEdges i s f c b = some (lower, upper) →
    (lower < 0 ∨ 99999 < lower ∨ upper < 0 ∨ 99999 < upper) →
    exec i s = .next { endedInError s .valueOutOfRange (queryCalls r1 r2) with snap := freshSnap f m d c b }

/-- R157, R178, R200: an apply whose n-th setup frame the transport cannot send raises TransportUnavailable; the frames
before it stay sent, and the fresh snapshot stays. -/
def Obligations.ApplyTransportFaultKeepsSentFrames : Prop :=
  ∀ (i : Instr) (s : State) (r1 r2 F2 F3 : List Byte) (f m : Nat) (d : Bool) (c : ModeClass) (b : Nat)
    (lower upper : Int),
    QueryGoesThrough s r1 r2 f m d c b → applyEdges i s f c b = some (lower, upper) →
    SetupBuilds s b lower upper F2 F3 →
    (s.answerAt 2 (bldfix s.cfg) = .unavailable →
      exec i s = .next { endedInError s .transportUnavailable (queryCalls r1 r2 ++
        [tailCall (bldfix s.cfg) .unavailable]) with snap := freshSnap f m d c b }) ∧
    (∀ x1, s.answerAt 2 (bldfix s.cfg) = .bytes x1 →
      (s.answerAt 3 F2 = .unavailable →
        exec i s = .next { endedInError s .transportUnavailable (queryCalls r1 r2 ++
          [tailCall (bldfix s.cfg) (.bytes x1), tailCall F2 .unavailable]) with snap := freshSnap f m d c b }) ∧
      (∀ x2, s.answerAt 3 F2 = .bytes x2 → s.answerAt 4 F3 = .unavailable →
        exec i s = .next { endedInError s .transportUnavailable (queryCalls r1 r2 ++
          [tailCall (bldfix s.cfg) (.bytes x1), tailCall F2 (.bytes x2), tailCall F3 .unavailable])
          with snap := freshSnap f m d c b }))

/-- R170: the fault codes. -/
def Obligations.FaultCodes : Prop :=
  FaultKind.transportUnavailable.code = 1 ∧ FaultKind.malformedResponse.code = 2 ∧
  FaultKind.frequencyOutOfRange.code = 3 ∧ FaultKind.valueOutOfRange.code = 4 ∧ FaultKind.illegalOperation.code = 5

/-- R150, R151, R24: a sequencer operation begun anywhere ends in Ready with ERR = 0, or in Error with ERR the code on
r_fault. -/
def Obligations.SequencerEndsReadyOrError : Prop :=
  ∀ (i : Instr) (s t : State), isSequencer i = true → exec i s = .next t →
    t.err = t.out.rFault ∧ t.seq = (if t.out.rFault = 0 then .ready else .error)

/-- R175: IllegalOperation never occurs inside a sequencer operation. -/
def Obligations.SequencerNeverIllegal : Prop :=
  ∀ (i : Instr) (s t : State), isSequencer i = true → exec i s = .next t → t.out ≠ .fault .illegalOperation

/-- R155: with a well-formed ROM and configuration APPLYD never ends in ValueOutOfRange. -/
def Obligations.ApplydNeverOutOfRange : Prop :=
  ∀ s t : State, s.tbl.WellFormed → s.cfg.WellFormed → exec .applyd s = .next t → t.out ≠ .fault .valueOutOfRange

/-- R158: the frames CIVB sends in one operation are a prefix of the fixed order, and none outside the sequencer. -/
def Obligations.FramesSentInFixedOrder : Prop :=
  ∀ (i : Instr) (s t : State), exec i s = .next t →
    ∃ new : List Call, t.calls = s.calls ++ new ∧ (∀ k ∈ new, k.caller = .block) ∧
      (isSequencer i = false → new = []) ∧
      (i = .query → new.map (·.frame) <+: [bldfrq, bldmod]) ∧
      (new.map (·.frame) <+: [bldfrq, bldmod] ∨
       ∃ F2 F3 seg lower upper, bldsel s.cfg s.cfg.slot = .ok F2 ∧ bldedg s.cfg seg s.cfg.slot lower upper = .ok F3 ∧
        new.map (·.frame) <+: [bldfrq, bldmod, bldfix s.cfg, F2, F3])

/-! ### Frames: what operations leave unchanged -/

/-- R153, R20, R26: the 19 operations outside the sequencer write the result ports and nothing else; the fault log gains
exactly the fault returned. -/
def Obligations.PureOperationsWriteOnlyResults : Prop :=
  ∀ (i : Instr) (s t : State), isSequencer i = false → exec i s = .next t →
    t = { s with out := t.out, faultLog := t.faultLog } ∧
    ((∃ k, t.out = .fault k ∧ t.faultLog = s.faultLog ++ [k]) ∨
     ((∀ k, t.out ≠ .fault k) ∧ t.faultLog = s.faultLog))

/-- R23, R25, R178: a sequencer operation writes SEQ, ERR, SNAP, the result ports and the records alone; it uses up one
answer a call; SNAP is replaced whole or kept. -/
def Obligations.SequencerFrame : Prop :=
  ∀ (i : Instr) (s t : State), isSequencer i = true → exec i s = .next t →
    t.tbl = s.tbl ∧ t.cfg = s.cfg ∧ t.pending = s.pending ∧ s.calls <+: t.calls ∧
    t.served - s.served = t.calls.length - s.calls.length ∧
    t.answers = s.answers.drop (t.calls.length - s.calls.length) ∧
    (t.snap = s.snap ∨ t.snap.valid = true) ∧
    ((∃ k, t.out = .fault k ∧ t.faultLog = s.faultLog ++ [k]) ∨
     ((∀ k, t.out ≠ .fault k) ∧ t.faultLog = s.faultLog))

/-- R20, R153: what an operation outside the sequencer returns depends on TBL and CFG alone. -/
def Obligations.PureResultsDependOnRomAndConfig : Prop :=
  ∀ (i : Instr) (s1 s2 t1 t2 : State), isSequencer i = false → s1.tbl = s2.tbl → s1.cfg = s2.cfg →
    exec i s1 = .next t1 → exec i s2 = .next t2 → t1.out = t2.out

/-- R154: the previous snapshot, state and fault register are not consulted by a sequencer operation. -/
def Obligations.SequencerIgnoresOldRegisters : Prop :=
  ∀ (i : Instr) (s t t' : State) (q : Seq) (sn : Snap) (e : BitVec 3), isSequencer i = true →
    exec i s = .next t → exec i { s with seq := q, snap := sn, err := e } = .next t' →
    t'.out = t.out ∧ t'.seq = t.seq ∧ t'.err = t.err ∧ t'.calls = t.calls ∧ t'.answers = t.answers ∧
    (t.seq = .ready → t'.snap = t.snap)

/-! ### Invariants -/

/-- R150, R23: a step from a machine between operations leaves a machine between operations, with a legal snapshot. -/
def Obligations.StepKeepsRegisterInvariant : Prop :=
  ∀ s t : State, s.Inv → step s = .next t → t.Inv

/-- The register invariant and the record invariant hold after reset. -/
def Obligations.ResetMeetsInvariants : Prop :=
  State.reset.Inv ∧ State.reset.CallsOk

/-- R80, R105, R158: under a configuration that meets R5, a step keeps the record of CIVB's calls made of well-shaped
frames of the five kinds, each sent in the state R150 names. -/
def Obligations.StepKeepsCallsWellShaped : Prop :=
  ∀ s t : State, s.cfg.WellFormed → s.CallsOk → step s = .next t → t.CallsOk

/-- R27, R31, R124: no step changes the ROM or the configuration. -/
def Obligations.StepKeepsRomAndConfig : Prop :=
  ∀ s t : State, step s = .next t → t.tbl = s.tbl ∧ t.cfg = s.cfg

/-- R202: no step takes anything from the record of calls or of faults. -/
def Obligations.StepOnlyExtendsRecords : Prop :=
  ∀ s t : State, step s = .next t → s.calls <+: t.calls ∧ s.faultLog <+: t.faultLog

/-- R32, R8, R141: every result of an operation the ports can present fits the result ports. -/
def Obligations.ResultsFitPorts : Prop :=
  ∀ (i : Instr) (s t : State), i.WellFormed → s.tbl.WellFormed → s.cfg.WellFormed → exec i s = .next t →
    t.out.FitsPorts

/-- R11, R178: every operation returns, with a result or a fault; none stops the machine. -/
def Obligations.EveryOperationReturns : Prop :=
  ∀ (i : Instr) (s : State), ∃ t, exec i s = .next t ∧ t.out ≠ .nothing
end

