-- ==== Sys2Proof/Laws/State.lean ====
section
/-! SUPPORT. One lemma per field per update of the state, so that no proof unfolds a record update. -/

namespace Sys2Proof.Machine

/-! ### `State.present` (R32) -/

@[simp] theorem State.present_tbl (s : State) (r : Result) : (s.present r).tbl = s.tbl := rfl
@[simp] theorem State.present_cfg (s : State) (r : Result) : (s.present r).cfg = s.cfg := rfl
@[simp] theorem State.present_seq (s : State) (r : Result) : (s.present r).seq = s.seq := rfl
@[simp] theorem State.present_snap (s : State) (r : Result) : (s.present r).snap = s.snap := rfl
@[simp] theorem State.present_err (s : State) (r : Result) : (s.present r).err = s.err := rfl
@[simp] theorem State.present_out (s : State) (r : Result) : (s.present r).out = r := rfl
@[simp] theorem State.present_calls (s : State) (r : Result) : (s.present r).calls = s.calls := rfl
@[simp] theorem State.present_faultLog (s : State) (r : Result) : (s.present r).faultLog = s.faultLog := rfl
@[simp] theorem State.present_answers (s : State) (r : Result) : (s.present r).answers = s.answers := rfl
@[simp] theorem State.present_served (s : State) (r : Result) : (s.present r).served = s.served := rfl
@[simp] theorem State.present_pending (s : State) (r : Result) : (s.present r).pending = s.pending := rfl

/-! ### `State.raise` (R178) -/

@[simp] theorem State.raise_tbl (s : State) (k : FaultKind) : (s.raise k).tbl = s.tbl := rfl
@[simp] theorem State.raise_cfg (s : State) (k : FaultKind) : (s.raise k).cfg = s.cfg := rfl
@[simp] theorem State.raise_seq (s : State) (k : FaultKind) : (s.raise k).seq = s.seq := rfl
@[simp] theorem State.raise_snap (s : State) (k : FaultKind) : (s.raise k).snap = s.snap := rfl
@[simp] theorem State.raise_err (s : State) (k : FaultKind) : (s.raise k).err = s.err := rfl
@[simp] theorem State.raise_out (s : State) (k : FaultKind) : (s.raise k).out = .fault k := rfl
@[simp] theorem State.raise_calls (s : State) (k : FaultKind) : (s.raise k).calls = s.calls := rfl
@[simp] theorem State.raise_faultLog (s : State) (k : FaultKind) : (s.raise k).faultLog = s.faultLog ++ [k] := rfl
@[simp] theorem State.raise_answers (s : State) (k : FaultKind) : (s.raise k).answers = s.answers := rfl
@[simp] theorem State.raise_served (s : State) (k : FaultKind) : (s.raise k).served = s.served := rfl
@[simp] theorem State.raise_pending (s : State) (k : FaultKind) : (s.raise k).pending = s.pending := rfl

/-! ### `State.enterError` (R178) -/

@[simp] theorem State.enterError_tbl (s : State) (k : FaultKind) : (s.enterError k).tbl = s.tbl := rfl
@[simp] theorem State.enterError_cfg (s : State) (k : FaultKind) : (s.enterError k).cfg = s.cfg := rfl
@[simp] theorem State.enterError_seq (s : State) (k : FaultKind) : (s.enterError k).seq = .error := rfl
@[simp] theorem State.enterError_snap (s : State) (k : FaultKind) : (s.enterError k).snap = s.snap := rfl
@[simp] theorem State.enterError_err (s : State) (k : FaultKind) : (s.enterError k).err = k.code := rfl
@[simp] theorem State.enterError_out (s : State) (k : FaultKind) : (s.enterError k).out = .fault k := rfl
@[simp] theorem State.enterError_calls (s : State) (k : FaultKind) : (s.enterError k).calls = s.calls := rfl
@[simp] theorem State.enterError_faultLog (s : State) (k : FaultKind) :
    (s.enterError k).faultLog = s.faultLog ++ [k] := rfl
@[simp] theorem State.enterError_answers (s : State) (k : FaultKind) : (s.enterError k).answers = s.answers := rfl
@[simp] theorem State.enterError_served (s : State) (k : FaultKind) : (s.enterError k).served = s.served := rfl
@[simp] theorem State.enterError_pending (s : State) (k : FaultKind) : (s.enterError k).pending = s.pending := rfl

/-! ### `State.beginSequencer` (R154 Q0) -/

@[simp] theorem State.beginSequencer_tbl (s : State) : (s.beginSequencer).tbl = s.tbl := rfl
@[simp] theorem State.beginSequencer_cfg (s : State) : (s.beginSequencer).cfg = s.cfg := rfl
@[simp] theorem State.beginSequencer_seq (s : State) : (s.beginSequencer).seq = .querying := rfl
@[simp] theorem State.beginSequencer_snap (s : State) : (s.beginSequencer).snap = s.snap := rfl
@[simp] theorem State.beginSequencer_err (s : State) : (s.beginSequencer).err = 0 := rfl
@[simp] theorem State.beginSequencer_out (s : State) : (s.beginSequencer).out = s.out := rfl
@[simp] theorem State.beginSequencer_calls (s : State) : (s.beginSequencer).calls = s.calls := rfl
@[simp] theorem State.beginSequencer_faultLog (s : State) : (s.beginSequencer).faultLog = s.faultLog := rfl
@[simp] theorem State.beginSequencer_answers (s : State) : (s.beginSequencer).answers = s.answers := rfl
@[simp] theorem State.beginSequencer_served (s : State) : (s.beginSequencer).served = s.served := rfl
@[simp] theorem State.beginSequencer_pending (s : State) : (s.beginSequencer).pending = s.pending := rfl

/-! ### `State.afterCall` (R50) -/

@[simp] theorem State.afterCall_tbl (s : State) (c : Caller) (F : List Byte) : (s.afterCall c F).tbl = s.tbl := rfl
@[simp] theorem State.afterCall_cfg (s : State) (c : Caller) (F : List Byte) : (s.afterCall c F).cfg = s.cfg := rfl
@[simp] theorem State.afterCall_seq (s : State) (c : Caller) (F : List Byte) : (s.afterCall c F).seq = s.seq := rfl
@[simp] theorem State.afterCall_snap (s : State) (c : Caller) (F : List Byte) :
    (s.afterCall c F).snap = s.snap := rfl
@[simp] theorem State.afterCall_err (s : State) (c : Caller) (F : List Byte) : (s.afterCall c F).err = s.err := rfl
@[simp] theorem State.afterCall_out (s : State) (c : Caller) (F : List Byte) : (s.afterCall c F).out = s.out := rfl
@[simp] theorem State.afterCall_calls (s : State) (c : Caller) (F : List Byte) :
    (s.afterCall c F).calls = s.calls ++ [{ caller := c, frame := F, answer := s.answerAt 0 F, seq := s.seq }] := rfl
@[simp] theorem State.afterCall_faultLog (s : State) (c : Caller) (F : List Byte) :
    (s.afterCall c F).faultLog = s.faultLog := rfl
@[simp] theorem State.afterCall_answers (s : State) (c : Caller) (F : List Byte) :
    (s.afterCall c F).answers = s.answers.tail := rfl
@[simp] theorem State.afterCall_served (s : State) (c : Caller) (F : List Byte) :
    (s.afterCall c F).served = s.served + 1 := rfl
@[simp] theorem State.afterCall_pending (s : State) (c : Caller) (F : List Byte) :
    (s.afterCall c F).pending = s.pending := rfl

/-! ### `State.storeSnap` (R154 Q6) -/

@[simp] theorem State.storeSnap_tbl (s : State) (f m : Nat) (d : Bool) (c : ModeClass) (b : Nat) :
    (s.storeSnap f m d c b).tbl = s.tbl := rfl
@[simp] theorem State.storeSnap_cfg (s : State) (f m : Nat) (d : Bool) (c : ModeClass) (b : Nat) :
    (s.storeSnap f m d c b).cfg = s.cfg := rfl
@[simp] theorem State.storeSnap_seq (s : State) (f m : Nat) (d : Bool) (c : ModeClass) (b : Nat) :
    (s.storeSnap f m d c b).seq = .ready := rfl
@[simp] theorem State.storeSnap_snap (s : State) (f m : Nat) (d : Bool) (c : ModeClass) (b : Nat) :
    (s.storeSnap f m d c b).snap = freshSnap f m d c b := rfl
@[simp] theorem State.storeSnap_err (s : State) (f m : Nat) (d : Bool) (c : ModeClass) (b : Nat) :
    (s.storeSnap f m d c b).err = s.err := rfl
@[simp] theorem State.storeSnap_out (s : State) (f m : Nat) (d : Bool) (c : ModeClass) (b : Nat) :
    (s.storeSnap f m d c b).out = s.out := rfl
@[simp] theorem State.storeSnap_calls (s : State) (f m : Nat) (d : Bool) (c : ModeClass) (b : Nat) :
    (s.storeSnap f m d c b).calls = s.calls := rfl
@[simp] theorem State.storeSnap_faultLog (s : State) (f m : Nat) (d : Bool) (c : ModeClass) (b : Nat) :
    (s.storeSnap f m d c b).faultLog = s.faultLog := rfl
@[simp] theorem State.storeSnap_answers (s : State) (f m : Nat) (d : Bool) (c : ModeClass) (b : Nat) :
    (s.storeSnap f m d c b).answers = s.answers := rfl
@[simp] theorem State.storeSnap_served (s : State) (f m : Nat) (d : Bool) (c : ModeClass) (b : Nat) :
    (s.storeSnap f m d c b).served = s.served := rfl
@[simp] theorem State.storeSnap_pending (s : State) (f m : Nat) (d : Bool) (c : ModeClass) (b : Nat) :
    (s.storeSnap f m d c b).pending = s.pending := rfl

/-! ### `State.applyReset` (R33) -/

@[simp] theorem State.applyReset_tbl (s : State) : (s.applyReset).tbl = s.tbl := rfl
@[simp] theorem State.applyReset_cfg (s : State) : (s.applyReset).cfg = s.cfg := rfl
@[simp] theorem State.applyReset_seq (s : State) : (s.applyReset).seq = .idle := rfl
@[simp] theorem State.applyReset_snap (s : State) : (s.applyReset).snap = Snap.reset := rfl
@[simp] theorem State.applyReset_err (s : State) : (s.applyReset).err = 0 := rfl
@[simp] theorem State.applyReset_out (s : State) : (s.applyReset).out = .nothing := rfl
@[simp] theorem State.applyReset_calls (s : State) : (s.applyReset).calls = s.calls := rfl
@[simp] theorem State.applyReset_faultLog (s : State) : (s.applyReset).faultLog = s.faultLog := rfl
@[simp] theorem State.applyReset_answers (s : State) : (s.applyReset).answers = s.answers := rfl
@[simp] theorem State.applyReset_served (s : State) : (s.applyReset).served = s.served := rfl
@[simp] theorem State.applyReset_pending (s : State) : (s.applyReset).pending = s.pending := rfl

/-! ### `State.beginTail` (R157 T0) -/

@[simp] theorem State.beginTail_tbl (s : State) : (s.beginTail).tbl = s.tbl := rfl
@[simp] theorem State.beginTail_cfg (s : State) : (s.beginTail).cfg = s.cfg := rfl
@[simp] theorem State.beginTail_seq (s : State) : (s.beginTail).seq = .applying := rfl
@[simp] theorem State.beginTail_snap (s : State) : (s.beginTail).snap = s.snap := rfl
@[simp] theorem State.beginTail_err (s : State) : (s.beginTail).err = s.err := rfl
@[simp] theorem State.beginTail_out (s : State) : (s.beginTail).out = s.out := rfl
@[simp] theorem State.beginTail_calls (s : State) : (s.beginTail).calls = s.calls := rfl
@[simp] theorem State.beginTail_faultLog (s : State) : (s.beginTail).faultLog = s.faultLog := rfl
@[simp] theorem State.beginTail_answers (s : State) : (s.beginTail).answers = s.answers := rfl
@[simp] theorem State.beginTail_served (s : State) : (s.beginTail).served = s.served := rfl
@[simp] theorem State.beginTail_pending (s : State) : (s.beginTail).pending = s.pending := rfl

/-! ### `State.endTail` (R157 T5) -/

@[simp] theorem State.endTail_tbl (s : State) : (s.endTail).tbl = s.tbl := rfl
@[simp] theorem State.endTail_cfg (s : State) : (s.endTail).cfg = s.cfg := rfl
@[simp] theorem State.endTail_seq (s : State) : (s.endTail).seq = .ready := rfl
@[simp] theorem State.endTail_snap (s : State) : (s.endTail).snap = s.snap := rfl
@[simp] theorem State.endTail_err (s : State) : (s.endTail).err = s.err := rfl
@[simp] theorem State.endTail_out (s : State) : (s.endTail).out = s.out := rfl
@[simp] theorem State.endTail_calls (s : State) : (s.endTail).calls = s.calls := rfl
@[simp] theorem State.endTail_faultLog (s : State) : (s.endTail).faultLog = s.faultLog := rfl
@[simp] theorem State.endTail_answers (s : State) : (s.endTail).answers = s.answers := rfl
@[simp] theorem State.endTail_served (s : State) : (s.endTail).served = s.served := rfl
@[simp] theorem State.endTail_pending (s : State) : (s.endTail).pending = s.pending := rfl

end Sys2Proof.Machine
end

