-- ==== Sys2Proof/Laws/Ops.lean ====
section
/-! SUPPORT. What each shared operation can do, said once: runs of sequencer steps, one call of `transceive`, the end of an
operation. -/

namespace Sys2Proof.Machine

variable {α β : Type}

/-! ### Runs of steps -/

@[simp] theorem bind_done (s : State) (a : α) (f : State → α → Ran β) : (Ran.done s a).bind f = f s a := rfl

@[simp] theorem bind_raised (s : State) (k : FaultKind) (f : State → α → Ran β) :
    (Ran.raised s k : Ran α).bind f = .raised s k := rfl

@[simp] theorem compute_ok (s : State) (a : α) : compute s (.ok a) = .done s a := rfl

@[simp] theorem compute_error (s : State) (k : FaultKind) : compute s (.error k : Except FaultKind α) = .raised s k := rfl

@[simp] theorem close_done (s : State) (v : Result) : (Ran.done s v).close = s.present v := rfl

@[simp] theorem close_raised (s : State) (k : FaultKind) : (Ran.raised s k).close = s.enterError k := rfl

/-- A run completes exactly if its first part does and the rest then does. -/
theorem bind_eq_done {r : Ran α} {f : State → α → Ran β} {t : State} {b : β} :
    r.bind f = .done t b ↔ ∃ s a, r = .done s a ∧ f s a = .done t b := by
  cases r <;> simp [Ran.bind]

/-- A run raises exactly if its first part does, or that completes and the rest raises. -/
theorem bind_eq_raised {r : Ran α} {f : State → α → Ran β} {t : State} {k : FaultKind} :
    r.bind f = .raised t k ↔ r = .raised t k ∨ ∃ s a, r = .done s a ∧ f s a = .raised t k := by
  cases r <;> simp [Ran.bind]

/-- A computing step completes exactly if its value exists, in the state it began in (R177). -/
theorem compute_eq_done {s t : State} {e : Except FaultKind α} {a : α} :
    compute s e = .done t a ↔ t = s ∧ e = .ok a := by
  cases e <;> simp [compute, eq_comm]

/-- A computing step raises exactly what its computation raises, in the state it began in (R178). -/
theorem compute_eq_raised {s t : State} {e : Except FaultKind α} {k : FaultKind} :
    compute s e = .raised t k ↔ t = s ∧ e = .error k := by
  cases e <;> simp [compute, eq_comm]

/-! ### The transport -/

/-- The answer to a later call is not changed by the calls before it (R50). -/
theorem answerAt_afterCall (s : State) (c : Caller) (F G : List Byte) (k : Nat) :
    (s.afterCall c F).answerAt k G = s.answerAt (k + 1) G := by
  simp [State.answerAt, Nat.add_assoc, Nat.add_comm 1 k]

@[simp] theorem answerAt_beginSequencer (s : State) (k : Nat) (F : List Byte) :
    s.beginSequencer.answerAt k F = s.answerAt k F := rfl

@[simp] theorem answerAt_storeSnap (s : State) (f m : Nat) (d : Bool) (c : ModeClass) (b k : Nat) (F : List Byte) :
    (s.storeSnap f m d c b).answerAt k F = s.answerAt k F := rfl

@[simp] theorem answerAt_beginTail (s : State) (k : Nat) (F : List Byte) :
    s.beginTail.answerAt k F = s.answerAt k F := rfl

/-- A call completes exactly if bytes came back; the call is then on record (R50). -/
theorem transceive_eq_done {s t : State} {F r : List Byte} :
    transceive s F = .done t r ↔ s.answerAt 0 F = .bytes r ∧ t = s.afterCall .block F := by
  unfold transceive
  cases h : s.answerAt 0 F <;> simp [and_comm, eq_comm]

/-- A call raises exactly if the transport is unavailable, and then TransportUnavailable; the call is on record all the
same (R171). -/
theorem transceive_eq_raised {s t : State} {F : List Byte} {k : FaultKind} :
    transceive s F = .raised t k ↔
      s.answerAt 0 F = .unavailable ∧ t = s.afterCall .block F ∧ k = .transportUnavailable := by
  unfold transceive
  cases h : s.answerAt 0 F <;> simp [eq_comm]

/-! ### The end of an operation outside the sequencer -/

@[simp] theorem finish_ok (s : State) (v : Result) : s.finish (.ok v) = s.present v := rfl

@[simp] theorem finish_error (s : State) (k : FaultKind) : s.finish (.error k) = s.raise k := rfl

/-- Whatever such an operation returns, it writes the result ports and the fault log alone (R153, R178). -/
theorem finish_frame (s : State) (r : Except FaultKind Result) :
    s.finish r = { s with out := (s.finish r).out, faultLog := (s.finish r).faultLog } := by
  cases r <;> rfl

/-- What such an operation returns depends on nothing but the computation. -/
theorem finish_out (s : State) (r : Except FaultKind Result) :
    (s.finish r).out = match r with
      | .ok v => v
      | .error k => .fault k := by
  cases r <;> rfl

end Sys2Proof.Machine
end

