-- ==== Sys2Proof/Laws/Bcd.lean ====
section
/-! SUPPORT. The BCD unit's functions, once each (spec/40_bcd.md R90 to R94). -/

namespace Sys2Proof.Machine

theorem hi_le (b : Byte) : hi b ≤ 15 := by have := b.isLt; unfold hi; omega

theorem lo_le (b : Byte) : lo b ≤ 15 := by unfold lo; omega

/-- A byte is its two nibbles (R91). -/
theorem toNat_eq_nibbles (b : Byte) : b.toNat = hi b * 16 + lo b := by unfold hi lo; omega

/-- The nibbles of a packed pair of digits are the digits (R90, R91). -/
theorem hi_packDigits {t u : Nat} (ht : t ≤ 9) (hu : u ≤ 9) : hi (packDigits t u) = t := by
  simp only [hi, packDigits, BitVec.toNat_ofNat]; omega

theorem lo_packDigits {t u : Nat} (hu : u ≤ 9) : lo (packDigits t u) = u := by
  simp only [lo, packDigits, BitVec.toNat_ofNat]; omega

theorem digit_le (v k : Nat) : digit v k ≤ 9 := by unfold digit; omega

/-- `isbcd` says both nibbles are digits (R91). -/
theorem isbcd_iff (b : Byte) : isbcd b = true ↔ hi b ≤ 9 ∧ lo b ≤ 9 := by simp [isbcd]

theorem isbcd_packDigits {t u : Nat} (ht : t ≤ 9) (hu : u ≤ 9) : isbcd (packDigits t u) = true := by
  rw [isbcd_iff, hi_packDigits ht hu, lo_packDigits hu]; exact ⟨ht, hu⟩

/-- A packed pair of digits is at most 0x99, so never 0xFD or 0xFE (R81, R90). -/
theorem packDigits_toNat_le {t u : Nat} (ht : t ≤ 9) (hu : u ≤ 9) : (packDigits t u).toNat ≤ 0x99 := by
  simp only [packDigits, BitVec.toNat_ofNat]; omega

/-- PACK2 answers exactly for two decimal digits (R90). -/
theorem pack2_eq_ok {t u : Nat} {b : Byte} : pack2 t u = .ok b ↔ t ≤ 9 ∧ u ≤ 9 ∧ b = packDigits t u := by
  unfold pack2
  split
  · exact ⟨fun h => (by cases h), fun ⟨_, _, _⟩ => by omega⟩
  · exact ⟨fun h => (by cases h; exact ⟨by omega, by omega, rfl⟩), fun ⟨_, _, h⟩ => by rw [h]⟩

/-- The five bytes of a kHz value in range (R92). -/
def khzField (n : Nat) : Field5 :=
  ⟨0x00, packDigits (digit n 0) 0, packDigits (digit n 2) (digit n 1), packDigits (digit n 4) (digit n 3), 0x00⟩

/-- ENCKHZ answers exactly for 0 to 99999, and then with the digits of its operand (R92). -/
theorem enckhz_eq_ok {v : Int} {p : Field5} : enckhz v = .ok p ↔ 0 ≤ v ∧ v ≤ 99999 ∧ p = khzField v.toNat := by
  unfold enckhz khzField
  split
  · exact ⟨fun h => (by cases h), fun ⟨_, _, _⟩ => by omega⟩
  · exact ⟨fun h => (by cases h; exact ⟨by omega, by omega, rfl⟩), fun ⟨_, _, h⟩ => by rw [h]⟩

/-- Otherwise it raises ValueOutOfRange (R92). -/
theorem enckhz_eq_error {v : Int} {k : FaultKind} :
    enckhz v = .error k ↔ (v < 0 ∨ 99999 < v) ∧ k = .valueOutOfRange := by
  unfold enckhz
  split
  · exact ⟨fun h => (by cases h; exact ⟨by omega, rfl⟩), fun ⟨_, h⟩ => by rw [h]⟩
  · exact ⟨fun h => (by cases h), fun ⟨_, _⟩ => by omega⟩

/-- DEC5 answers exactly if all five bytes are BCD (R93). -/
theorem dec5_eq_ok {p : Field5} {f : Nat} :
    dec5 p = .ok f ↔ p.bytes.all isbcd = true ∧
      f = hi p.p4 * 10 ^ 8 + lo p.p4 * 10 ^ 7 + hi p.p3 * 10 ^ 6 + lo p.p3 * 10 ^ 5 + hi p.p2 * 10 ^ 4 +
        lo p.p2 * 10 ^ 3 + hi p.p1 * 10 ^ 2 + lo p.p1 * 10 + hi p.p0 := by
  unfold dec5
  split
  · rename_i hb
    exact ⟨fun h => ⟨hb, by cases h; rfl⟩, fun h => by rw [h.2]⟩
  · rename_i hb
    exact ⟨fun h => (by cases h), fun h => absurd h.1 hb⟩

/-- Otherwise it raises MalformedResponse (R93). -/
theorem dec5_eq_error {p : Field5} {k : FaultKind} :
    dec5 p = .error k ↔ p.bytes.all isbcd = false ∧ k = .malformedResponse := by
  unfold dec5
  split
  · rename_i hb
    exact ⟨fun h => (by cases h), fun h => by rw [hb] at h; cases h.1⟩
  · rename_i hb
    exact ⟨fun h => ⟨by simpa using hb, by cases h; rfl⟩, fun h => by rw [h.2]⟩

/-- A decoded frequency is at most 999 999 999 (R93). -/
theorem dec5_le {p : Field5} {f : Nat} (h : dec5 p = .ok f) : f ≤ 999999999 := by
  obtain ⟨hb, rfl⟩ := dec5_eq_ok.mp h
  simp only [Field5.bytes, List.all_cons, List.all_nil, Bool.and_true, Bool.and_eq_true, isbcd_iff] at hb
  omega

end Sys2Proof.Machine
end

