-- ==== Sys2Proof/Laws/Decode.lean ====
section
/-! SUPPORT. Signed ports and integers (spec/10_state.md R32): what fits a port comes back from it, and what a port carries
fits it. -/

namespace Sys2Proof

/-- An integer that fits a signed port of width `w` is read back from it. -/
theorem toInt_ofInt_of_fits {w : Nat} (hw : 0 < w) {v : Int} (h : FitsSigned w v) : (BitVec.ofInt w v).toInt = v := by
  obtain ⟨h1, h2⟩ := h
  have hp : (2 : Int) ^ w = 2 * 2 ^ (w - 1) := by rw [← pow_succ']; congr 1; omega
  rw [BitVec.toInt_ofInt]
  apply Int.bmod_eq_of_le <;> push_cast <;> omega

/-- What a signed port carries fits it. -/
theorem fits_toInt {w : Nat} (hw : 0 < w) (b : BitVec w) : FitsSigned w b.toInt := by
  have h1 := BitVec.two_mul_toInt_lt (x := b)
  have h2 := BitVec.le_two_mul_toInt (x := b)
  have hp : (2 : Int) ^ w = 2 * 2 ^ (w - 1) := by rw [← pow_succ']; congr 1; omega
  constructor <;> omega

@[simp] theorem flagOf_flagBit (d : Bool) : flagOf (flagBit d) = d := by cases d <;> rfl

end Sys2Proof
end

