-- ==== Sys2Proof/Laws/Frames.lean ====
section
/-! SUPPORT. The frame encoder's and the frame decoder's functions, once each (spec/41_frame_build.md,
spec/42_frame_decode.md). -/

namespace Sys2Proof.Machine

theorem slotOk_iff (c : Cfg) (slot : Nat) : slotOk c slot = true ↔ 1 ≤ slot ∧ slot ≤ c.nSlots := by
  simp [slotOk]

/-- BLDSEL answers exactly for a slot 1 to N_SLOTS (R103). -/
theorem bldsel_eq_ok {c : Cfg} {slot : Nat} {F : List Byte} :
    bldsel c slot = .ok F ↔ (1 ≤ slot ∧ slot ≤ c.nSlots) ∧
      F = envelope cmdScope ([subSel] ++ c.scopeSel ++ [BitVec.ofNat 8 slot]) := by
  unfold bldsel
  rw [← slotOk_iff]
  split
  · rename_i hs
    exact ⟨fun h => ⟨hs, (by cases h; rfl)⟩, fun h => by rw [h.2]⟩
  · rename_i hs
    exact ⟨fun h => (by cases h), fun h => absurd h.1 hs⟩

/-- Otherwise it raises ValueOutOfRange (R103). -/
theorem bldsel_eq_error {c : Cfg} {slot : Nat} {k : FaultKind} :
    bldsel c slot = .error k ↔ ¬ (1 ≤ slot ∧ slot ≤ c.nSlots) ∧ k = .valueOutOfRange := by
  unfold bldsel
  rw [← slotOk_iff]
  split
  · rename_i hs
    exact ⟨fun h => (by cases h), fun h => absurd hs h.1⟩
  · rename_i hs
    exact ⟨fun h => ⟨hs, (by cases h; rfl)⟩, fun h => by rw [h.2]⟩

/-- BLDEDG answers exactly for a segment, a slot and two edges in range (R104). -/
theorem bldedg_eq_ok {c : Cfg} {seg slot : Nat} {lower upper : Int} {F : List Byte} :
    bldedg c seg slot lower upper = .ok F ↔
      seg ≤ 99 ∧ (1 ≤ slot ∧ slot ≤ c.nSlots) ∧ (0 ≤ lower ∧ lower ≤ 99999) ∧ (0 ≤ upper ∧ upper ≤ 99999) ∧
      F = envelope cmdScope ([subEdg, bcdByte seg, BitVec.ofNat 8 slot] ++ (khzField lower.toNat).bytes ++
        (khzField upper.toNat).bytes) := by
  unfold bldedg
  rw [← slotOk_iff]
  by_cases h1 : seg > 99
  · simp [h1]
  by_cases h2 : slotOk c slot = true
  · simp only [h1, h2, if_false, Bool.not_true, Bool.false_eq_true]
    cases h3 : enckhz lower with
    | error k => have := (enckhz_eq_error.mp h3).1; simp [Except.bind]; omega
    | ok p =>
      cases h4 : enckhz upper with
      | error k => have := (enckhz_eq_error.mp h4).1; simp [Except.bind]; omega
      | ok q =>
        obtain ⟨a1, a2, rfl⟩ := enckhz_eq_ok.mp h3
        obtain ⟨b1, b2, rfl⟩ := enckhz_eq_ok.mp h4
        simp only [Except.bind, Except.ok.injEq, true_and]
        constructor
        · rintro rfl; exact ⟨by omega, ⟨a1, a2⟩, ⟨b1, b2⟩, rfl⟩
        · rintro ⟨-, -, -, rfl⟩; rfl
  · simp [h1, h2]

/-- Whatever it raises is ValueOutOfRange (R104). -/
theorem bldedg_error {c : Cfg} {seg slot : Nat} {lower upper : Int} {k : FaultKind}
    (h : bldedg c seg slot lower upper = .error k) : k = .valueOutOfRange := by
  unfold bldedg at h
  split at h
  · simp_all
  split at h
  · simp_all
  cases h3 : enckhz lower with
  | error k' => simp_all [Except.bind, enckhz_eq_error]
  | ok p => cases h4 : enckhz upper <;> simp_all [Except.bind, enckhz_eq_error]

/-- A byte counted from the end is a byte of the response, or MalformedResponse (R44). -/
theorem byteFromEnd_error {resp : List Byte} {n : Nat} {k : FaultKind} (h : byteFromEnd resp n = .error k) :
    k = .malformedResponse := by
  unfold byteFromEnd at h
  split at h
  · simp_all
  · split at h <;> simp_all

/-- The byte at distance `n` from the end of `X ++ E`, where `E` is long enough, is that of `E`. -/
theorem byteFromEnd_append {X E : List Byte} {n : Nat} (h : n ≤ E.length) :
    byteFromEnd (X ++ E) n = byteFromEnd E n := by
  unfold byteFromEnd
  split
  · rfl
  · rw [List.reverse_append, List.getElem?_append_left (by rw [List.length_reverse]; omega)]

/-- What DECFRQ raises is MalformedResponse (R110). -/
theorem decfrq_error {c : Cfg} {resp : List Byte} {k : FaultKind} (h : decfrq c resp = .error k) :
    k = .malformedResponse := by
  unfold decfrq at h
  split at h
  · simp_all
  split at h
  · simp_all
  cases h3 : fieldBeforeEom resp with
  | ok p => rw [h3] at h; exact (dec5_eq_error.mp h).2
  | error k' =>
    rw [h3] at h
    cases h
    unfold fieldBeforeEom at h3
    cases h6 : byteFromEnd resp 6 <;> cases h5 : byteFromEnd resp 5 <;> cases h4 : byteFromEnd resp 4 <;>
      cases h3' : byteFromEnd resp 3 <;> cases h2 : byteFromEnd resp 2 <;>
      simp_all [Except.bind] <;> (subst h3; first
        | exact byteFromEnd_error h6 | exact byteFromEnd_error h5 | exact byteFromEnd_error h4
        | exact byteFromEnd_error h3' | exact byteFromEnd_error h2)

/-- What DECFRQ answers is a frequency of at most 999 999 999 (R110, R93). -/
theorem decfrq_le {c : Cfg} {resp : List Byte} {f : Nat} (h : decfrq c resp = .ok f) : f ≤ 999999999 := by
  unfold decfrq at h
  split at h
  · simp_all
  split at h
  · simp_all
  cases h3 : fieldBeforeEom resp with
  | ok p => rw [h3] at h; exact dec5_le h
  | error k' => rw [h3] at h; cases h

/-- What DECMOD answers is a mode code of at most 13 (R111). -/
theorem decmod_le {c : Cfg} {resp : List Byte} {m : Nat} {d : Bool} (h : decmod c resp = .ok (m, d)) : m ≤ 13 := by
  unfold decmod at h
  split at h
  · simp_all
  split at h
  · simp_all
  cases h1 : byteFromEnd resp c.modeOfs with
  | error k => rw [h1] at h; cases h
  | ok a =>
    cases h2 : byteFromEnd resp (c.modeOfs - 1) with
    | error k => rw [h1, h2] at h; cases h
    | ok b =>
      rw [h1, h2] at h
      simp only [Except.bind, modeAndFlag] at h
      split at h
      · cases h
      split at h
      · cases h
      · cases h; omega

/-- What DECMOD raises is MalformedResponse (R111). -/
theorem decmod_error {c : Cfg} {resp : List Byte} {k : FaultKind} (h : decmod c resp = .error k) :
    k = .malformedResponse := by
  unfold decmod at h
  split at h
  · simp_all
  split at h
  · simp_all
  cases h1 : byteFromEnd resp c.modeOfs with
  | error k => rw [h1] at h; cases h; exact byteFromEnd_error h1
  | ok a =>
    cases h2 : byteFromEnd resp (c.modeOfs - 1) with
    | error k => rw [h1, h2] at h; cases h; exact byteFromEnd_error h2
    | ok b =>
      rw [h1, h2] at h
      simp only [Except.bind, modeAndFlag] at h
      split at h
      · cases h; rfl
      split at h
      · cases h; rfl
      · cases h

end Sys2Proof.Machine
end

