-- ==== Sys2Proof/Laws/Sequencer.lean ====
section
/-! SUPPORT. What the query steps and the apply tail can do, said once (spec/46_sequencer.md R154, R157; spec/60_exceptions.md
R177): the state each way of ending leaves. -/

namespace Sys2Proof.Machine

/-- The state at the end of step Q1, whatever came back. -/
def afterFrqCall (s : State) : State := s.beginSequencer.afterCall .block bldfrq

/-- The state at the end of step Q3, whatever came back. -/
def afterModCall (s : State) : State := (afterFrqCall s).afterCall .block bldmod

/-- The query steps complete exactly if every step does, and then leave the two calls made and the snapshot stored
(R154). -/
theorem querySteps_eq_done {s t : State} :
    querySteps s = .done t () ↔
      ∃ r1 r2 f m d c b, QueryGoesThrough s r1 r2 f m d c b ∧ t = (afterModCall s).storeSnap f m d c b := by
  simp only [querySteps, bind_eq_done, transceive_eq_done, compute_eq_done]
  constructor
  · rintro ⟨s1, r1, ⟨h1, rfl⟩, s2, f, ⟨rfl, h2⟩, s3, r2, ⟨h3, rfl⟩, s4, ⟨m, d⟩, ⟨rfl, h4⟩, s5, c, ⟨rfl, h5⟩, s6, b,
      ⟨rfl, h6⟩, h7⟩
    cases h7
    exact ⟨r1, r2, f, m, d, c, b, ⟨by simpa using h1, by simpa using h2, by simpa [answerAt_afterCall] using h3,
      by simpa using h4, h5, by simpa using h6⟩, rfl⟩
  · rintro ⟨r1, r2, f, m, d, c, b, ⟨h1, h2, h3, h4, h5, h6⟩, rfl⟩
    exact ⟨_, r1, ⟨by simpa using h1, rfl⟩, _, f, ⟨rfl, by simpa using h2⟩, _, r2,
      ⟨by simpa [answerAt_afterCall] using h3, rfl⟩, _, (m, d), ⟨rfl, by simpa using h4⟩, _, c, ⟨rfl, h5⟩, _, b,
      ⟨rfl, by simpa using h6⟩, rfl⟩

/-- Where the query steps raise, and what (R177): Q1 or Q3 TransportUnavailable, Q2 or Q4 what the decoder raises, Q5 what
the classifiers raise. The snapshot is not yet written. -/
theorem querySteps_eq_raised {s t : State} {k : FaultKind} (h : querySteps s = .raised t k) :
    (s.answerAt 0 bldfrq = .unavailable ∧ t = afterFrqCall s ∧ k = .transportUnavailable) ∨
    ∃ r1, s.answerAt 0 bldfrq = .bytes r1 ∧
      ((decfrq s.cfg r1 = .error k ∧ t = afterFrqCall s) ∨
       ∃ f, decfrq s.cfg r1 = .ok f ∧
        ((s.answerAt 1 bldmod = .unavailable ∧ t = afterModCall s ∧ k = .transportUnavailable) ∨
         ∃ r2, s.answerAt 1 bldmod = .bytes r2 ∧
          ((decmod s.cfg r2 = .error k ∧ t = afterModCall s) ∨
           ∃ m d, decmod s.cfg r2 = .ok (m, d) ∧
            ((clsmod m d = .error k ∧ t = afterModCall s) ∨
             ∃ c, clsmod m d = .ok c ∧ clsbnd s.tbl f = .error k ∧ t = afterModCall s)))) := by
  simp only [querySteps, bind_eq_raised, transceive_eq_raised, transceive_eq_done, compute_eq_raised,
    compute_eq_done] at h
  rcases h with ⟨h1, rfl, rfl⟩ | ⟨s1, r1, ⟨h1, rfl⟩, h⟩
  · exact .inl ⟨by simpa using h1, rfl, rfl⟩
  refine .inr ⟨r1, by simpa using h1, ?_⟩
  rcases h with ⟨rfl, h2⟩ | ⟨s2, f, ⟨rfl, h2⟩, h⟩
  · exact .inl ⟨by simpa using h2, rfl⟩
  refine .inr ⟨f, by simpa using h2, ?_⟩
  rcases h with ⟨h3, rfl, rfl⟩ | ⟨s3, r2, ⟨h3, rfl⟩, h⟩
  · exact .inl ⟨by simpa [answerAt_afterCall] using h3, rfl, rfl⟩
  refine .inr ⟨r2, by simpa [answerAt_afterCall] using h3, ?_⟩
  rcases h with ⟨rfl, h4⟩ | ⟨s4, ⟨m, d⟩, ⟨rfl, h4⟩, h⟩
  · exact .inl ⟨by simpa using h4, rfl⟩
  refine .inr ⟨m, d, by simpa using h4, ?_⟩
  rcases h with ⟨rfl, h5⟩ | ⟨s5, c, ⟨rfl, h5⟩, h⟩
  · exact .inl ⟨h5, rfl⟩
  refine .inr ⟨c, h5, ?_⟩
  rcases h with ⟨rfl, h6⟩ | ⟨s6, b, _, h⟩
  · exact ⟨by simpa using h6, rfl⟩
  · cases h

/-- The apply tail completes exactly if the three frames build and the transport answers all three calls with bytes
(R157). -/
theorem applyTail_eq_done {s t : State} {lower upper : Int} :
    applyTail s lower upper = .done t () ↔
      ∃ F1 F2 F3 x1 x2 x3, setupFrames s.beginTail lower upper = .ok (F1, F2, F3) ∧
        s.answerAt 0 F1 = .bytes x1 ∧ s.answerAt 1 F2 = .bytes x2 ∧ s.answerAt 2 F3 = .bytes x3 ∧
        t = (((s.beginTail.afterCall .block F1).afterCall .block F2).afterCall .block F3).endTail := by
  simp only [applyTail, bind_eq_done, transceive_eq_done, compute_eq_done]
  constructor
  · rintro ⟨s1, ⟨F1, F2, F3⟩, ⟨rfl, h1⟩, s2, x1, ⟨h2, rfl⟩, s3, x2, ⟨h3, rfl⟩, s4, x3, ⟨h4, rfl⟩, h5⟩
    cases h5
    exact ⟨F1, F2, F3, x1, x2, x3, h1, h2, by simpa [answerAt_afterCall] using h3,
      by simpa [answerAt_afterCall] using h4, rfl⟩
  · rintro ⟨F1, F2, F3, x1, x2, x3, h1, h2, h3, h4, rfl⟩
    exact ⟨_, (F1, F2, F3), ⟨rfl, h1⟩, _, x1, ⟨h2, rfl⟩, _, x2, ⟨by simpa [answerAt_afterCall] using h3, rfl⟩, _, x3,
      ⟨by simpa [answerAt_afterCall] using h4, rfl⟩, rfl⟩

/-- Where the apply tail raises, and what (R177): T1 what building raises, T2 to T4 TransportUnavailable, with the frames
before it already sent (R157, R200). -/
theorem applyTail_eq_raised {s t : State} {lower upper : Int} {k : FaultKind}
    (h : applyTail s lower upper = .raised t k) :
    (setupFrames s.beginTail lower upper = .error k ∧ t = s.beginTail) ∨
    ∃ F1 F2 F3, setupFrames s.beginTail lower upper = .ok (F1, F2, F3) ∧ k = .transportUnavailable ∧
      ((s.answerAt 0 F1 = .unavailable ∧ t = s.beginTail.afterCall .block F1) ∨
       ∃ x1, s.answerAt 0 F1 = .bytes x1 ∧
        ((s.answerAt 1 F2 = .unavailable ∧ t = (s.beginTail.afterCall .block F1).afterCall .block F2) ∨
         ∃ x2, s.answerAt 1 F2 = .bytes x2 ∧ s.answerAt 2 F3 = .unavailable ∧
          t = ((s.beginTail.afterCall .block F1).afterCall .block F2).afterCall .block F3)) := by
  simp only [applyTail, bind_eq_raised, transceive_eq_raised, transceive_eq_done, compute_eq_raised,
    compute_eq_done] at h
  rcases h with ⟨rfl, h1⟩ | ⟨s1, ⟨F1, F2, F3⟩, ⟨rfl, h1⟩, h⟩
  · exact .inl ⟨h1, rfl⟩
  refine .inr ⟨F1, F2, F3, h1, ?_⟩
  rcases h with ⟨h2, rfl, rfl⟩ | ⟨s2, x1, ⟨h2, rfl⟩, h⟩
  · exact ⟨rfl, .inl ⟨h2, rfl⟩⟩
  rcases h with ⟨h3, rfl, rfl⟩ | ⟨s3, x2, ⟨h3, rfl⟩, h⟩
  · exact ⟨rfl, .inr ⟨x1, h2, .inl ⟨by simpa [answerAt_afterCall] using h3, rfl⟩⟩⟩
  rcases h with ⟨h4, rfl, rfl⟩ | ⟨s4, x3, _, h⟩
  · exact ⟨rfl, .inr ⟨x1, h2, .inr ⟨x2, by simpa [answerAt_afterCall] using h3,
      by simpa [answerAt_afterCall] using h4, rfl⟩⟩⟩
  · cases h

/-- The three frames of a setup are the fixed-mode frame, the select frame and the edge-write frame for the segment of the
snapshot's band and the configured slot (R157 T1). -/
theorem setupFrames_eq_ok {s : State} {lower upper : Int} {F1 F2 F3 : List Byte} :
    setupFrames s lower upper = .ok (F1, F2, F3) ↔
      ∃ seg, tseg s.tbl s.snap.band.toNat = .ok seg ∧ F1 = bldfix s.cfg ∧ bldsel s.cfg s.cfg.slot = .ok F2 ∧
        bldedg s.cfg seg s.cfg.slot lower upper = .ok F3 := by
  unfold setupFrames
  cases tseg s.tbl s.snap.band.toNat with
  | error k => simp [Except.bind]
  | ok seg =>
    cases bldsel s.cfg s.cfg.slot with
    | error k => simp [Except.bind]
    | ok G2 =>
      cases h : bldedg s.cfg seg s.cfg.slot lower upper <;> simp [Except.bind, h, eq_comm]

/-- How a sequencer operation that ends with a run `r` ends: it presents the run's result, or takes its fault. -/
theorem close_cases (r : Ran Result) :
    (∃ s v, r = .done s v ∧ r.close = s.present v) ∨ (∃ s k, r = .raised s k ∧ r.close = s.enterError k) := by
  cases r with
  | done s v => exact .inl ⟨s, v, rfl, rfl⟩
  | raised s k => exact .inr ⟨s, k, rfl, rfl⟩

/-- An apply ends in one of four ways: the query steps raise; the edges cannot be computed; the tail raises; or all of it
completes and the edges are returned (R155, R156, R177). -/
theorem applyWith_cases (edges : State → Except FaultKind (Int × Int)) (s : State) :
    (∃ t k, querySteps s = .raised t k ∧ applyWith edges s = t.enterError k) ∨
    ∃ t, querySteps s = .done t () ∧
      ((∃ k, edges t = .error k ∧ applyWith edges s = t.enterError k) ∨
       ∃ lower upper, edges t = .ok (lower, upper) ∧
        ((∃ u k, applyTail t lower upper = .raised u k ∧ applyWith edges s = u.enterError k) ∨
         ∃ u, applyTail t lower upper = .done u () ∧ applyWith edges s = u.present (.edges lower upper))) := by
  unfold applyWith
  cases hq : querySteps s with
  | raised t k => exact .inl ⟨t, k, rfl, rfl⟩
  | done t a =>
    refine .inr ⟨t, rfl, ?_⟩
    rw [bind_done]
    cases he : edges t with
    | error k => exact .inl ⟨k, rfl, rfl⟩
    | ok e =>
      obtain ⟨lower, upper⟩ := e
      refine .inr ⟨lower, upper, rfl, ?_⟩
      rw [compute_ok, bind_done]
      cases ht : applyTail t lower upper with
      | raised u k => exact .inl ⟨u, k, rfl, rfl⟩
      | done u a => exact .inr ⟨u, rfl, rfl⟩

end Sys2Proof.Machine
end

