-- ==== Sys2Proof/Laws/Tables.lean ====
section
/-! SUPPORT. The ROM accessors and the classifiers, once each (spec/43_table.md, spec/44_classify.md,
spec/45_edge.md). -/

namespace Sys2Proof.Machine

/-- TLOOKUP answers exactly for a band of the table (R120). -/
theorem tlookup_eq (t : Table) {band ent : Nat} (hb : band < 12) (he : ent < 4) :
    tlookup t band ent = .ok t.edge[band][ent] := by
  simp [tlookup, hb, he]

/-- TSEG answers for every band of the table (R123). -/
theorem tseg_eq (t : Table) {band : Nat} (hb : band < 12) : tseg t band = .ok t.seg[band] := by
  simp [tseg, hb]

/-- EDGDEF answers for every band and mode class (R140). -/
theorem edgdef_eq (t : Table) {band cls : Nat} (hb : band < 12) (hc : cls < 3) :
    edgdef t band cls = .ok t.edge[band][cls] := by
  have : ¬ (band > 11 ∨ cls > 2) := by omega
  rw [edgdef, if_neg this, tlookup_eq t hb (by omega)]

/-- CLSMOD cannot raise on a mode code of at most 13 (R130, R154 Q5). -/
theorem clsmod_ok {mode : Nat} (h : mode ≤ 13) (d : Bool) : ∃ c, clsmod mode d = .ok c := by
  have : ¬ mode > 13 := by omega
  unfold clsmod
  rw [if_neg this]
  split
  · exact ⟨_, rfl⟩
  split <;> exact ⟨_, rfl⟩

/-- The class register never holds 3 (R23). -/
theorem ModeClass.code_lt (c : ModeClass) : c.code.toNat < 3 := by cases c <;> decide

/-- The scan answers the first band whose upper edge is at or above the frequency (R131). -/
theorem scanBands_eq_ok {f10 : Nat} {es : List Edge} {b0 b : Nat} :
    scanBands f10 b0 es = .ok b ↔
      ∃ j, b = b0 + j ∧ (∃ h : j < es.length, f10 ≤ es[j].hi * 100) ∧
        ∀ i (h : i < es.length), i < j → es[i].hi * 100 < f10 := by
  induction es generalizing b0 with
  | nil => simp [scanBands]
  | cons e es ih =>
    unfold scanBands
    split
    · rename_i hge
      constructor
      · intro h
        cases h
        exact ⟨0, rfl, ⟨by simp, by simpa using hge⟩, fun i _ hi => absurd hi (Nat.not_lt_zero i)⟩
      · rintro ⟨j, rfl, _, hmin⟩
        cases j with
        | zero => rfl
        | succ j => have := hmin 0 (by simp) (by omega); simp only [List.getElem_cons_zero] at this; omega
    · rename_i hlt
      rw [ih]
      constructor
      · rintro ⟨j, rfl, ⟨hj, hge⟩, hmin⟩
        refine ⟨j + 1, by omega, ⟨by simp; omega, by simpa using hge⟩, ?_⟩
        intro i hi hij
        cases i with
        | zero => simp only [List.getElem_cons_zero]; omega
        | succ i =>
          simp only [List.getElem_cons_succ]
          exact hmin i (by simp only [List.length_cons] at hi; omega) (by omega)
      · rintro ⟨j, rfl, ⟨hj, hge⟩, hmin⟩
        cases j with
        | zero => simp only [List.getElem_cons_zero] at hge; omega
        | succ j =>
          refine ⟨j, by omega, ⟨by simp only [List.length_cons] at hj; omega, by simpa using hge⟩, ?_⟩
          intro i hi hij
          have := hmin (i + 1) (by simp; omega) (by omega)
          simpa using this

/-- The scan raises exactly if every upper edge is below the frequency, and then FrequencyOutOfRange (R131). -/
theorem scanBands_eq_error {f10 : Nat} {es : List Edge} {b0 : Nat} {k : FaultKind} :
    scanBands f10 b0 es = .error k ↔ (∀ e ∈ es, e.hi * 100 < f10) ∧ k = .frequencyOutOfRange := by
  induction es generalizing b0 with
  | nil => simp [scanBands, eq_comm]
  | cons e es ih =>
    unfold scanBands
    split
    · rename_i hge
      simp only [reduceCtorEq, List.mem_cons, forall_eq_or_imp, false_iff, not_and]
      intro h
      omega
    · rename_i hlt
      rw [ih]
      have : e.hi * 100 < f10 := by omega
      simp [this]

theorem wholeBands_length (t : Table) : (wholeBands t).length = 12 := by simp [wholeBands]

theorem wholeBands_getElem (t : Table) {b : Nat} (h : b < 12) :
    (wholeBands t)[b]'(by rw [wholeBands_length]; exact h) = t.edge[b][3] := by simp [wholeBands]

/-- CLSBND answers the first band, in index order, whose whole-band upper edge is at or above the frequency (R131). -/
theorem clsbnd_eq_ok {t : Table} {f10 b : Nat} :
    clsbnd t f10 = .ok b ↔ ∃ h : b < 12, f10 ≤ t.edge[b][3].hi * 100 ∧
      ∀ b' (h' : b' < 12), b' < b → t.edge[b'][3].hi * 100 < f10 := by
  unfold clsbnd
  rw [scanBands_eq_ok]
  constructor
  · rintro ⟨j, rfl, ⟨hj, hge⟩, hmin⟩
    rw [wholeBands_length] at hj
    rw [wholeBands_getElem t hj] at hge
    simp only [Nat.zero_add]
    refine ⟨hj, hge, fun b' h' hb => ?_⟩
    have := hmin b' (by rw [wholeBands_length]; exact h') hb
    rwa [wholeBands_getElem t h'] at this
  · rintro ⟨hb, hge, hmin⟩
    refine ⟨b, by omega, ⟨by rw [wholeBands_length]; exact hb, by rw [wholeBands_getElem t hb]; exact hge⟩, ?_⟩
    intro i hi hij
    rw [wholeBands_length] at hi
    rw [wholeBands_getElem t hi]
    exact hmin i hi hij

/-- CLSBND raises exactly if the frequency is above every whole-band upper edge, and then FrequencyOutOfRange (R131,
R173). -/
theorem clsbnd_eq_error {t : Table} {f10 : Nat} {k : FaultKind} :
    clsbnd t f10 = .error k ↔ (∀ b (h : b < 12), t.edge[b][3].hi * 100 < f10) ∧ k = .frequencyOutOfRange := by
  unfold clsbnd
  rw [scanBands_eq_error]
  refine and_congr ⟨fun h b hb => ?_, fun h e he => ?_⟩ Iff.rfl
  · have := h _ (List.getElem_mem (l := wholeBands t) (n := b) (by rw [wholeBands_length]; exact hb))
    rwa [wholeBands_getElem t hb] at this
  · obtain ⟨i, hi, rfl⟩ := List.getElem_of_mem he
    rw [wholeBands_length] at hi
    rw [wholeBands_getElem t hi]
    exact h i hi

end Sys2Proof.Machine
end

