-- ==== Sys2Proof/Laws/Operations.lean ====
section
/-! SUPPORT. What an operation can do, said once: the 19 operations outside the sequencer end in `State.finish`, and the three of
the sequencer end in one of four ways (spec/46_sequencer.md R153 to R157). -/

namespace Sys2Proof.Machine

/-- A result that is a value: not a fault and not the absence of a result. -/
def Result.IsValue (r : Result) : Prop := r ≠ .nothing ∧ ∀ k, r ≠ .fault k

theorem map_isValue {α : Type} (e : Except FaultKind α) {f : α → Result} (hf : ∀ a, (f a).IsValue) (v : Result)
    (h : e.map f = .ok v) : v.IsValue := by
  cases e <;> cases h
  exact hf _

/-- An operation outside the sequencer computes a value or a fault from its operands, TBL and CFG alone, and ends with it
(R20, R153). -/
theorem exec_pure (i : Instr) (h : isSequencer i = false) :
    ∃ r : Table → Cfg → Except FaultKind Result,
      (∀ s : State, exec i s = .next (s.finish (r s.tbl s.cfg))) ∧ ∀ t c v, r t c = .ok v → v.IsValue := by
  cases i with
  | pack2 t u =>
    exact ⟨fun _ _ => (pack2 t u).map .byte, fun _ => rfl,
      fun _ _ => map_isValue _ fun _ => ⟨nofun, nofun⟩⟩
  | unpk2 b =>
    exact ⟨fun _ _ => .ok (.digits (hi b) (lo b) (isbcd b)),
      fun _ => rfl, fun t c v h => by cases h; simp [Result.IsValue]⟩
  | enckhz v =>
    exact ⟨fun _ _ => (enckhz v).map .payload, fun _ => rfl,
      fun _ _ => map_isValue _ fun _ => ⟨nofun, nofun⟩⟩
  | dec5 p =>
    exact ⟨fun _ _ => (dec5 p).map .freq, fun _ => rfl,
      fun _ _ => map_isValue _ fun _ => ⟨nofun, nofun⟩⟩
  | bldfrq =>
    exact ⟨fun _ _ => .ok (.frame bldfrq),
      fun _ => rfl, fun t c v h => by cases h; simp [Result.IsValue]⟩
  | bldmod =>
    exact ⟨fun _ _ => .ok (.frame bldmod),
      fun _ => rfl, fun t c v h => by cases h; simp [Result.IsValue]⟩
  | bldfix =>
    exact ⟨fun _ c => .ok (.frame (bldfix c)),
      fun _ => rfl, fun t c v h => by cases h; simp [Result.IsValue]⟩
  | bldsel slot =>
    exact ⟨fun _ c => (bldsel c slot).map .frame, fun _ => rfl,
      fun _ _ => map_isValue _ fun _ => ⟨nofun, nofun⟩⟩
  | bldedg seg slot lower upper =>
    exact ⟨fun _ c => (bldedg c seg slot lower upper).map .frame, fun _ => rfl,
      fun _ _ => map_isValue _ fun _ => ⟨nofun, nofun⟩⟩
  | decfrq resp =>
    exact ⟨fun _ c => (decfrq c resp).map .freq, fun _ => rfl,
      fun _ _ => map_isValue _ fun _ => ⟨nofun, nofun⟩⟩
  | decmod resp =>
    exact ⟨fun _ c => (decmod c resp).map fun r => .mode r.1 r.2, fun _ => rfl,
      fun _ _ => map_isValue _ fun _ => ⟨nofun, nofun⟩⟩
  | tlookup band ent =>
    exact ⟨fun t _ => (tlookup t band ent).map edgeResult, fun _ => rfl,
      fun _ _ => map_isValue _ fun _ => ⟨nofun, nofun⟩⟩
  | twhole band =>
    exact ⟨fun t _ => (twhole t band).map edgeResult, fun _ => rfl,
      fun _ _ => map_isValue _ fun _ => ⟨nofun, nofun⟩⟩
  | tname mode d =>
    exact ⟨fun t _ => (tname t mode d).map .name, fun _ => rfl,
      fun _ _ => map_isValue _ fun _ => ⟨nofun, nofun⟩⟩
  | tseg band =>
    exact ⟨fun t _ => (tseg t band).map .segment, fun _ => rfl,
      fun _ _ => map_isValue _ fun _ => ⟨nofun, nofun⟩⟩
  | clsmod mode d =>
    exact ⟨fun _ _ => (clsmod mode d).map .cls, fun _ => rfl,
      fun _ _ => map_isValue _ fun _ => ⟨nofun, nofun⟩⟩
  | clsbnd f10 =>
    exact ⟨fun t _ => (clsbnd t f10).map .band, fun _ => rfl,
      fun _ _ => map_isValue _ fun _ => ⟨nofun, nofun⟩⟩
  | edgdef band cls =>
    exact ⟨fun t _ => (edgdef t band cls).map edgeResult, fun _ => rfl,
      fun _ _ => map_isValue _ fun _ => ⟨nofun, nofun⟩⟩
  | edgofs f10 ofs wid =>
    exact ⟨fun _ c => .ok (.edges (edgofs c f10 ofs wid).1 (edgofs c f10 ofs wid).2),
      fun _ => rfl, fun t c v h => by cases h; simp [Result.IsValue]⟩
  | query => simp [isSequencer] at h
  | applyd => simp [isSequencer] at h
  | applyo ofs wid => simp [isSequencer] at h

/-- Such an operation presents a value or raises a fault (R11, R178). -/
theorem exec_pure_cases {i : Instr} {s t : State} (hi : isSequencer i = false) (h : exec i s = .next t) :
    (∃ k, t = s.raise k) ∨ ∃ v, v.IsValue ∧ t = s.present v := by
  obtain ⟨r, hr, hv⟩ := exec_pure i hi
  rw [hr] at h
  cases h
  cases he : r s.tbl s.cfg with
  | ok v => exact .inr ⟨v, hv _ _ _ he, rfl⟩
  | error k => exact .inl ⟨k, rfl⟩

/-! ### Premises of a query, and what they bound -/

theorem QueryGoesThrough.freq_le {s : State} {r1 r2 : List Byte} {f m : Nat} {d : Bool} {c : ModeClass} {b : Nat}
    (h : QueryGoesThrough s r1 r2 f m d c b) : f ≤ 999999999 := decfrq_le h.q2

theorem QueryGoesThrough.mode_le {s : State} {r1 r2 : List Byte} {f m : Nat} {d : Bool} {c : ModeClass} {b : Nat}
    (h : QueryGoesThrough s r1 r2 f m d c b) : m ≤ 13 := decmod_le h.q4

theorem QueryGoesThrough.band_lt {s : State} {r1 r2 : List Byte} {f m : Nat} {d : Bool} {c : ModeClass} {b : Nat}
    (h : QueryGoesThrough s r1 r2 f m d c b) : b < 12 := (clsbnd_eq_ok.mp h.q6).1

/-- The fields of SNAP hold what is stored into them (R23). -/
theorem freshSnap_f10 {f : Nat} (h : f ≤ 999999999) (m : Nat) (d : Bool) (c : ModeClass) (b : Nat) :
    (freshSnap f m d c b).f10.toNat = f := by
  simp only [freshSnap, BitVec.toNat_ofNat]; omega

theorem freshSnap_mode {m : Nat} (h : m ≤ 13) (f : Nat) (d : Bool) (c : ModeClass) (b : Nat) :
    (freshSnap f m d c b).mode.toNat = m := by
  simp only [freshSnap, BitVec.toNat_ofNat]; omega

theorem freshSnap_band {b : Nat} (h : b < 12) (f m : Nat) (d : Bool) (c : ModeClass) :
    (freshSnap f m d c b).band.toNat = b := by
  simp only [freshSnap, BitVec.toNat_ofNat]; omega

/-- The fault the query steps raise is one of three: never ValueOutOfRange, never IllegalOperation (R154, R175). -/
theorem querySteps_fault {s t : State} {k : FaultKind} (h : querySteps s = .raised t k) :
    k = .transportUnavailable ∨ k = .malformedResponse ∨ k = .frequencyOutOfRange := by
  rcases querySteps_eq_raised h with ⟨-, -, h⟩ | ⟨r1, -, ⟨h, -⟩ | ⟨f, -, ⟨-, -, h⟩ | ⟨r2, -, ⟨h, -⟩ | ⟨m, d, hm, h⟩⟩⟩⟩
  · exact .inl h
  · exact .inr (.inl (decfrq_error h))
  · exact .inl h
  · exact .inr (.inl (decmod_error h))
  · obtain ⟨c, hc⟩ := clsmod_ok (decmod_le hm) d
    rcases h with ⟨h, -⟩ | ⟨_, -, h, -⟩
    · rw [hc] at h; cases h
    · exact .inr (.inr (clsbnd_eq_error.mp h).2)

/-- The edges an apply computes from a fresh snapshot always exist (R155, R156: "cannot raise"). -/
theorem applyEdges_exist {i : Instr} {s : State} {f b : Nat} (hi : isSequencer i = true) (hq : i ≠ .query)
    (c : ModeClass) (hb : b < 12) : ∃ lower upper, applyEdges i s f c b = some (lower, upper) := by
  cases i <;> simp_all [isSequencer]
  · simp only [applyEdges, edgdef_eq _ hb c.code_lt, Except.toOption, Option.map_some]
    exact ⟨_, _, rfl⟩
  · exact ⟨_, _, rfl⟩

/-- A sequencer operation ends in one of four ways: the query steps raise; it is QUERY and returns the fresh snapshot; it
is an apply whose tail raises; or it is an apply that completes (R154 to R157, R177). -/
theorem exec_sequencer_cases {i : Instr} {s t : State} (hi : isSequencer i = true) (h : exec i s = .next t) :
    (∃ v k, querySteps s = .raised v k ∧ t = v.enterError k) ∨
    ∃ r1 r2 f m d c b, QueryGoesThrough s r1 r2 f m d c b ∧
      ((i = .query ∧ t = ((afterModCall s).storeSnap f m d c b).present (.snapshot (freshSnap f m d c b))) ∨
       ∃ lower upper, i ≠ .query ∧ applyEdges i s f c b = some (lower, upper) ∧
        ((∃ v k, applyTail ((afterModCall s).storeSnap f m d c b) lower upper = .raised v k ∧ t = v.enterError k) ∨
         ∃ v, applyTail ((afterModCall s).storeSnap f m d c b) lower upper = .done v () ∧
          t = v.present (.edges lower upper))) := by
  cases i <;> simp [isSequencer] at hi
  case query =>
    cases h
    cases hq : querySteps s with
    | raised v k => exact .inl ⟨v, k, rfl, rfl⟩
    | done v a =>
      obtain ⟨r1, r2, f, m, d, c, b, hg, rfl⟩ := querySteps_eq_done.mp hq
      exact .inr ⟨r1, r2, f, m, d, c, b, hg, .inl ⟨rfl, rfl⟩⟩
  case applyd =>
    cases h
    rcases applyWith_cases (fun t =>
      (edgdef t.tbl t.snap.band.toNat t.snap.cls.toNat).map fun e => ((e.lo : Int), (e.hi : Int))) s with
      ⟨v, k, hq, he⟩ | ⟨v, hq, hr⟩
    · exact .inl ⟨v, k, hq, he⟩
    obtain ⟨r1, r2, f, m, d, c, b, hg, rfl⟩ := querySteps_eq_done.mp hq
    refine .inr ⟨r1, r2, f, m, d, c, b, hg, .inr ?_⟩
    have hedge : edgdef ((afterModCall s).storeSnap f m d c b).tbl
        ((afterModCall s).storeSnap f m d c b).snap.band.toNat
        ((afterModCall s).storeSnap f m d c b).snap.cls.toNat = .ok (s.tbl.edge[b]'hg.band_lt)[c.code.toNat] := by
      rw [State.storeSnap_snap, freshSnap_band hg.band_lt, State.storeSnap_tbl]
      exact edgdef_eq _ hg.band_lt c.code_lt
    simp only [hedge, Except.map, reduceCtorEq, false_and, exists_false, false_or, Except.ok.injEq,
      Prod.mk.injEq] at hr
    obtain ⟨_, _, ⟨rfl, rfl⟩, hr⟩ := hr
    refine ⟨_, _, by simp, ?_, hr⟩
    simp only [applyEdges, edgdef_eq _ hg.band_lt c.code_lt, Except.toOption, Option.map_some]
  case applyo ofs wid =>
    cases h
    rcases applyWith_cases (fun t => .ok (edgofs t.cfg t.snap.f10.toNat ofs wid)) s with ⟨v, k, hq, he⟩ | ⟨v, hq, hr⟩
    · exact .inl ⟨v, k, hq, he⟩
    obtain ⟨r1, r2, f, m, d, c, b, hg, rfl⟩ := querySteps_eq_done.mp hq
    refine .inr ⟨r1, r2, f, m, d, c, b, hg, .inr ?_⟩
    simp only [State.storeSnap_snap, freshSnap_f10 hg.freq_le, reduceCtorEq, false_and, exists_false, false_or,
      Except.ok.injEq] at hr
    obtain ⟨lower, upper, he, hr⟩ := hr
    exact ⟨lower, upper, by simp, by simpa [applyEdges, afterModCall, afterFrqCall] using he, hr⟩

/-- On a band of the table, building the setup frames raises ValueOutOfRange or nothing (R157 T1). -/
theorem setupFrames_error {s : State} {lower upper : Int} {k : FaultKind} (hb : s.snap.band.toNat < 12)
    (h : setupFrames s lower upper = .error k) :
    k = .valueOutOfRange := by
  unfold setupFrames at h
  rw [tseg_eq _ hb] at h
  simp only [Except.bind] at h
  cases h1 : bldsel s.cfg s.cfg.slot with
  | error k' => rw [h1] at h; cases h; exact (bldsel_eq_error.mp h1).2
  | ok F2 =>
    rw [h1] at h; simp only at h
    cases h2 : bldedg s.cfg s.tbl.seg[s.snap.band.toNat] s.cfg.slot lower upper with
    | error k' => rw [h2] at h; cases h; exact bldedg_error h2
    | ok F3 => rw [h2] at h; cases h

/-- The state at the end of the query steps that found `f`, `m`, `d`, `c` and `b` (R154 Q6). -/
def freshState (s : State) (f m : Nat) (d : Bool) (c : ModeClass) (b : Nat) : State :=
  (afterModCall s).storeSnap f m d c b

/-- The state of an apply tail after its calls with the frames `Fs` (R157 T2 to T4). -/
def State.afterTail (s : State) (Fs : List (List Byte)) : State := Fs.foldl (·.afterCall .block ·) s.beginTail

/-- Every way a sequencer operation ends, with the state it leaves: QUERY or an apply faults in the query steps; QUERY
completes; an apply faults at T1, at T2, T3 or T4, or completes (R154 to R157, R177, R178). -/
theorem exec_sequencer_ends {i : Instr} {s t : State} (hi : isSequencer i = true) (h : exec i s = .next t) :
    (∃ v k, (v = afterFrqCall s ∨ v = afterModCall s) ∧
      (k = .transportUnavailable ∨ k = .malformedResponse ∨ k = .frequencyOutOfRange) ∧ t = v.enterError k) ∨
    ∃ r1 r2 f m d c b, QueryGoesThrough s r1 r2 f m d c b ∧
      ((i = .query ∧ t = (freshState s f m d c b).present (.snapshot (freshSnap f m d c b))) ∨
       ∃ lower upper, i ≠ .query ∧ applyEdges i s f c b = some (lower, upper) ∧
        ((t = (freshState s f m d c b).beginTail.enterError .valueOutOfRange ∧
            ∃ k, setupFrames (freshState s f m d c b).beginTail lower upper = .error k) ∨
         ∃ F1 F2 F3, setupFrames (freshState s f m d c b).beginTail lower upper = .ok (F1, F2, F3) ∧
          (t = (((freshState s f m d c b).afterTail [F1]).enterError .transportUnavailable) ∨
           t = (((freshState s f m d c b).afterTail [F1, F2]).enterError .transportUnavailable) ∨
           t = (((freshState s f m d c b).afterTail [F1, F2, F3]).enterError .transportUnavailable) ∨
           t = (((freshState s f m d c b).afterTail [F1, F2, F3]).endTail.present (.edges lower upper))))) := by
  rcases exec_sequencer_cases hi h with ⟨v, k, hq, rfl⟩ | ⟨r1, r2, f, m, d, c, b, hg, ⟨rfl, rfl⟩ | ⟨lo, up, hne, he, h⟩⟩
  · refine .inl ⟨v, k, ?_, querySteps_fault hq, rfl⟩
    rcases querySteps_eq_raised hq with ⟨-, h, -⟩ | ⟨_, -, ⟨-, h⟩ | ⟨_, -, ⟨-, h, -⟩ | ⟨_, -, ⟨-, h⟩ | ⟨_, _, -, ⟨-, h⟩ |
      ⟨_, -, -, h⟩⟩⟩⟩⟩ <;> simp [h]
  · exact .inr ⟨r1, r2, f, m, d, c, b, hg, .inl ⟨rfl, rfl⟩⟩
  refine .inr ⟨r1, r2, f, m, d, c, b, hg, .inr ⟨lo, up, hne, he, ?_⟩⟩
  rcases h with ⟨v, k, ht, rfl⟩ | ⟨v, ht, rfl⟩
  · rcases applyTail_eq_raised ht with ⟨hs, rfl⟩ | ⟨F1, F2, F3, hs, rfl, h'⟩
    · have := setupFrames_error (by simpa [freshSnap_band hg.band_lt] using hg.band_lt) hs
      subst this
      exact .inl ⟨rfl, _, hs⟩
    · refine .inr ⟨F1, F2, F3, hs, ?_⟩
      rcases h' with ⟨-, rfl⟩ | ⟨_, -, ⟨-, rfl⟩ | ⟨_, -, -, rfl⟩⟩
      · exact .inl rfl
      · exact .inr (.inl rfl)
      · exact .inr (.inr (.inl rfl))
  · obtain ⟨F1, F2, F3, _, _, _, hs, -, -, -, rfl⟩ := applyTail_eq_done.mp ht
    exact .inr ⟨F1, F2, F3, hs, .inr (.inr (.inr rfl))⟩

/-! ### The same ends in the closed forms of `Sys2Proof.Safety` -/

theorem madeCalls_madeCalls (s : State) (cs ds : List Call) :
    madeCalls (madeCalls s cs) ds = madeCalls s (cs ++ ds) := by
  simp [madeCalls, List.drop_drop, Nat.add_assoc]

/-- One call of `transceive` is one call made (R50). -/
theorem afterCall_eq (s : State) (c : Caller) (F : List Byte) :
    s.afterCall c F = madeCalls s [{ caller := c, frame := F, answer := s.answerAt 0 F, seq := s.seq }] := by
  simp [State.afterCall, madeCalls, List.drop_one]

theorem afterFrqCall_eq (s : State) :
    afterFrqCall s = { madeCalls s [frqCall (s.answerAt 0 bldfrq)] with err := 0, seq := .querying } := by
  rw [afterFrqCall, afterCall_eq]; rfl

theorem afterModCall_eq (s : State) :
    afterModCall s =
      { madeCalls s [frqCall (s.answerAt 0 bldfrq), modCall (s.answerAt 1 bldmod)] with err := 0, seq := .querying } := by
  rw [afterModCall, afterCall_eq, afterFrqCall, answerAt_afterCall, afterCall_eq]
  simp [madeCalls, frqCall, modCall]

/-- The state after a query that goes through, before it returns: the two calls made, the snapshot stored (R154 Q6). -/
theorem freshState_eq {s : State} {r1 r2 : List Byte} {f m : Nat} {d : Bool} {c : ModeClass} {b : Nat}
    (h : QueryGoesThrough s r1 r2 f m d c b) :
    freshState s f m d c b =
      { madeCalls s (queryCalls r1 r2) with snap := freshSnap f m d c b, err := 0, seq := .ready } := by
  rw [freshState, afterModCall_eq, h.q1, h.q3]; rfl

/-- The calls of an apply tail are made with SEQ = Applying, one a frame, in the frames' order (R157, R150). -/
theorem afterTail_eq (s : State) (Fs : List (List Byte)) :
    ∃ cs : List Call, cs.map (·.frame) = Fs ∧ (∀ k ∈ cs, k.caller = .block ∧ k.seq = .applying) ∧
      s.afterTail Fs = { madeCalls s cs with seq := .applying } := by
  induction Fs using List.reverseRecOn with
  | nil => exact ⟨[], rfl, by simp, by simp [State.afterTail, State.beginTail, madeCalls]⟩
  | append_singleton Fs F ih =>
    obtain ⟨cs, hf, hc, he⟩ := ih
    refine ⟨cs ++ [tailCall F ((s.afterTail Fs).answerAt 0 F)], by simp [hf, tailCall], ?_, ?_⟩
    · intro k hk
      rcases List.mem_append.mp hk with hk | hk
      · exact hc k hk
      · simp at hk; subst hk; exact ⟨rfl, rfl⟩
    · rw [State.afterTail, List.foldl_concat, ← State.afterTail, afterCall_eq, he, ← madeCalls_madeCalls]; rfl

/-- Every way a sequencer operation ends, in closed form: it ends in a fault of the query steps; QUERY ends Ready; an apply
ends in ValueOutOfRange with no setup frame sent, or in TransportUnavailable after some of them, or Ready after all three
(R154 to R157, R177, R178). -/
theorem exec_sequencer_shape {i : Instr} {s t : State} (hi : isSequencer i = true) (h : exec i s = .next t) :
    (∃ k cs, (k = .transportUnavailable ∨ k = .malformedResponse ∨ k = .frequencyOutOfRange) ∧
      (cs.map (·.frame) = [bldfrq] ∨ cs.map (·.frame) = [bldfrq, bldmod]) ∧
      (∀ x ∈ cs, x.caller = .block ∧ x.seq = .querying) ∧ t = endedInError s k cs) ∨
    ∃ r1 r2 f m d c b, QueryGoesThrough s r1 r2 f m d c b ∧
      ((i = .query ∧ t = endedReady s (.snapshot (freshSnap f m d c b)) (freshSnap f m d c b) (queryCalls r1 r2)) ∨
       ∃ lower upper, i ≠ .query ∧ applyEdges i s f c b = some (lower, upper) ∧
        ((t = { endedInError s .valueOutOfRange (queryCalls r1 r2) with snap := freshSnap f m d c b } ∧
            ¬ ∃ F2 F3, SetupBuilds s b lower upper F2 F3) ∨
         ∃ F2 F3 cs, SetupBuilds s b lower upper F2 F3 ∧ cs.map (·.frame) <+: [bldfix s.cfg, F2, F3] ∧
          (∀ x ∈ cs, x.caller = .block ∧ x.seq = .applying) ∧
          (t = { endedInError s .transportUnavailable (queryCalls r1 r2 ++ cs) with snap := freshSnap f m d c b } ∨
           (cs.map (·.frame) = [bldfix s.cfg, F2, F3] ∧
            t = endedReady s (.edges lower upper) (freshSnap f m d c b) (queryCalls r1 r2 ++ cs))))) := by
  rcases exec_sequencer_ends hi h with ⟨v, k, hv, hk, rfl⟩ | ⟨r1, r2, f, m, d, c, b, hg, h⟩
  · left
    rcases hv with rfl | rfl
    · exact ⟨k, [frqCall (s.answerAt 0 bldfrq)], hk, .inl rfl, by simp [frqCall], by rw [afterFrqCall_eq]; rfl⟩
    · exact ⟨k, [frqCall (s.answerAt 0 bldfrq), modCall (s.answerAt 1 bldmod)], hk, .inr rfl,
        by simp [frqCall, modCall], by rw [afterModCall_eq]; rfl⟩
  refine .inr ⟨r1, r2, f, m, d, c, b, hg, ?_⟩
  have hset : ∀ lower upper F1 F2 F3,
      setupFrames (freshState s f m d c b).beginTail lower upper = .ok (F1, F2, F3) ↔
        F1 = bldfix s.cfg ∧ SetupBuilds s b lower upper F2 F3 := by
    intro lower upper F1 F2 F3
    rw [setupFrames_eq_ok, freshState_eq hg]
    simp only [State.beginTail, madeCalls, freshSnap_band hg.band_lt]
    exact ⟨fun ⟨seg, h1, h2, h3, h4⟩ => ⟨h2, h3, seg, h1, h4⟩, fun ⟨h2, h3, seg, h1, h4⟩ => ⟨seg, h1, h2, h3, h4⟩⟩
  rcases h with ⟨rfl, rfl⟩ | ⟨lower, upper, hq, he, ⟨rfl, k, hk⟩ | ⟨F1, F2, F3, hs, h⟩⟩
  · exact .inl ⟨rfl, by rw [freshState_eq hg]; rfl⟩
  · refine .inr ⟨lower, upper, hq, he, .inl ⟨by rw [freshState_eq hg]; rfl, ?_⟩⟩
    rintro ⟨F2, F3, hb⟩
    rw [(hset lower upper _ F2 F3).mpr ⟨rfl, hb⟩] at hk
    cases hk
  obtain ⟨rfl, hb⟩ := (hset _ _ _ _ _).mp hs
  refine .inr ⟨lower, upper, hq, he, .inr ?_⟩
  have tail : ∀ Fs, ∃ cs : List Call, cs.map (·.frame) = Fs ∧ (∀ k ∈ cs, k.caller = .block ∧ k.seq = .applying) ∧
      (freshState s f m d c b).afterTail Fs =
        { madeCalls s (queryCalls r1 r2 ++ cs) with snap := freshSnap f m d c b, err := 0, seq := .applying } := by
    intro Fs
    obtain ⟨cs, h1, h2, h3⟩ := afterTail_eq (freshState s f m d c b) Fs
    refine ⟨cs, h1, h2, ?_⟩
    rw [h3, freshState_eq hg, ← madeCalls_madeCalls]; rfl
  rcases h with rfl | rfl | rfl | rfl
  · obtain ⟨cs, h1, h2, h3⟩ := tail [bldfix s.cfg]
    exact ⟨F2, F3, cs, hb, h1 ▸ ⟨[F2, F3], rfl⟩, h2, .inl (by rw [h3]; rfl)⟩
  · obtain ⟨cs, h1, h2, h3⟩ := tail [bldfix s.cfg, F2]
    exact ⟨F2, F3, cs, hb, h1 ▸ ⟨[F3], rfl⟩, h2, .inl (by rw [h3]; rfl)⟩
  · obtain ⟨cs, h1, h2, h3⟩ := tail [bldfix s.cfg, F2, F3]
    exact ⟨F2, F3, cs, hb, h1 ▸ List.prefix_rfl, h2, .inl (by rw [h3]; rfl)⟩
  · obtain ⟨cs, h1, h2, h3⟩ := tail [bldfix s.cfg, F2, F3]
    exact ⟨F2, F3, cs, hb, h1 ▸ List.prefix_rfl, h2, .inr ⟨h1, by rw [h3]; rfl⟩⟩

end Sys2Proof.Machine
end

