-- ==== Sys2Proof/Laws/PerInstr.lean ====
section
/-! SUPPORT. What holds of every operation as syntax, one lemma a constructor: its code is not reserved, and the code alone,
whatever the operand ports carry, selects the operation (spec/30_encoding.md R77, R78; R177). -/

namespace Sys2Proof.Laws.Opsel

/-- The code `i` is presented with is not reserved, and every presentation of that code decodes to an operation with
that code. -/
def Statement (i : Instr) : Prop :=
  reservedOpsel (encode i).opsel = false ∧
    ∀ p : Ports, p.opsel = (encode i).opsel → ∃ j, decode p = .ok j ∧ (encode j).opsel = (encode i).opsel

/-- The shape of every proof below: the code `c` is not reserved, and decoding it gives `f`'s operation. -/
theorem of_code {i : Instr} (c : BitVec 8) (f : Ports → Instr) (hc : (encode i).opsel = c) (hr : reservedOpsel c = false)
    (hd : ∀ p : Ports, p.opsel = c → decode p = .ok (f p)) (hf : ∀ p, (encode (f p)).opsel = c) : Statement i := by
  subst hc
  exact ⟨hr, fun p hp => ⟨f p, hd p hp, hf p⟩⟩

theorem pack2 (t : Nat) (u : Nat) : Statement (.pack2 t u) :=
  of_code 0x01 (fun p => .pack2 p.a_t.toNat p.a_u.toNat) rfl (by decide)
    (fun p h => by cases p; cases h; rfl) fun _ => rfl

theorem unpk2 (b : Byte) : Statement (.unpk2 b) :=
  of_code 0x02 (fun p => .unpk2 p.a_byte) rfl (by decide)
    (fun p h => by cases p; cases h; rfl) fun _ => rfl

theorem enckhz (v : Int) : Statement (.enckhz v) :=
  of_code 0x03 (fun p => .enckhz p.a_v.toInt) rfl (by decide)
    (fun p h => by cases p; cases h; rfl) fun _ => rfl

theorem dec5 (p : Field5) : Statement (.dec5 p) :=
  of_code 0x04 (fun p => .dec5 p.a_p) rfl (by decide)
    (fun p h => by cases p; cases h; rfl) fun _ => rfl

theorem bldfrq : Statement .bldfrq :=
  of_code 0x10 (fun _ => .bldfrq) rfl (by decide)
    (fun p h => by cases p; cases h; rfl) fun _ => rfl

theorem bldmod : Statement .bldmod :=
  of_code 0x11 (fun _ => .bldmod) rfl (by decide)
    (fun p h => by cases p; cases h; rfl) fun _ => rfl

theorem bldfix : Statement .bldfix :=
  of_code 0x12 (fun _ => .bldfix) rfl (by decide)
    (fun p h => by cases p; cases h; rfl) fun _ => rfl

theorem bldsel (slot : Nat) : Statement (.bldsel slot) :=
  of_code 0x13 (fun p => .bldsel p.a_slot.toNat) rfl (by decide)
    (fun p h => by cases p; cases h; rfl) fun _ => rfl

theorem bldedg (seg : Nat) (slot : Nat) (lower : Int) (upper : Int) : Statement (.bldedg seg slot lower upper) :=
  of_code 0x14 (fun p => .bldedg p.a_seg.toNat p.a_slot.toNat p.a_lo.toInt p.a_hi.toInt) rfl (by decide)
    (fun p h => by cases p; cases h; rfl) fun _ => rfl

theorem decfrq (resp : List Byte) : Statement (.decfrq resp) :=
  of_code 0x18 (fun p => .decfrq p.a_resp) rfl (by decide)
    (fun p h => by cases p; cases h; rfl) fun _ => rfl

theorem decmod (resp : List Byte) : Statement (.decmod resp) :=
  of_code 0x19 (fun p => .decmod p.a_resp) rfl (by decide)
    (fun p h => by cases p; cases h; rfl) fun _ => rfl

theorem tlookup (band : Nat) (ent : Nat) : Statement (.tlookup band ent) :=
  of_code 0x20 (fun p => .tlookup p.a_band.toNat p.a_ent.toNat) rfl (by decide)
    (fun p h => by cases p; cases h; rfl) fun _ => rfl

theorem twhole (band : Nat) : Statement (.twhole band) :=
  of_code 0x21 (fun p => .twhole p.a_band.toNat) rfl (by decide)
    (fun p h => by cases p; cases h; rfl) fun _ => rfl

theorem tname (mode : Nat) (d : Bool) : Statement (.tname mode d) :=
  of_code 0x22 (fun p => .tname p.a_mode.toNat (flagOf p.a_dflag)) rfl (by decide)
    (fun p h => by cases p; cases h; rfl) fun _ => rfl

theorem tseg (band : Nat) : Statement (.tseg band) :=
  of_code 0x23 (fun p => .tseg p.a_band.toNat) rfl (by decide)
    (fun p h => by cases p; cases h; rfl) fun _ => rfl

theorem clsmod (mode : Nat) (d : Bool) : Statement (.clsmod mode d) :=
  of_code 0x28 (fun p => .clsmod p.a_mode.toNat (flagOf p.a_dflag)) rfl (by decide)
    (fun p h => by cases p; cases h; rfl) fun _ => rfl

theorem clsbnd (f10 : Nat) : Statement (.clsbnd f10) :=
  of_code 0x29 (fun p => .clsbnd p.a_f10.toNat) rfl (by decide)
    (fun p h => by cases p; cases h; rfl) fun _ => rfl

theorem edgdef (band : Nat) (cls : Nat) : Statement (.edgdef band cls) :=
  of_code 0x30 (fun p => .edgdef p.a_band.toNat p.a_ent.toNat) rfl (by decide)
    (fun p h => by cases p; cases h; rfl) fun _ => rfl

theorem edgofs (f10 : Nat) (ofs : Int) (wid : Int) : Statement (.edgofs f10 ofs wid) :=
  of_code 0x31 (fun p => .edgofs p.a_f10.toNat p.a_ofs.toInt p.a_wid.toInt) rfl (by decide)
    (fun p h => by cases p; cases h; rfl) fun _ => rfl

theorem query : Statement .query :=
  of_code 0x40 (fun _ => .query) rfl (by decide)
    (fun p h => by cases p; cases h; rfl) fun _ => rfl

theorem applyd : Statement .applyd :=
  of_code 0x41 (fun _ => .applyd) rfl (by decide)
    (fun p h => by cases p; cases h; rfl) fun _ => rfl

theorem applyo (ofs : Int) (wid : Int) : Statement (.applyo ofs wid) :=
  of_code 0x42 (fun p => .applyo p.a_ofs.toInt p.a_wid.toInt) rfl (by decide)
    (fun p h => by cases p; cases h; rfl) fun _ => rfl

end Sys2Proof.Laws.Opsel
end

