-- ==== Sys2Proof/Laws/Shapes.lean ====
section
/-! SUPPORT. The shape of every frame CIVB builds (spec/30_encoding.md R60, R61; spec/41_frame_build.md R105). -/

namespace Sys2Proof.Machine

/-- The frequency request has the shape of R105. -/
theorem frameShape_bldfrq : FrameShape bldfrq := ⟨[0x25], rfl, by simp, by simp⟩

/-- The mode request has the shape of R105. -/
theorem frameShape_bldmod : FrameShape bldmod := ⟨[0x26], rfl, by simp, by simp⟩

/-- A byte of value at most 0x99 is neither the terminator nor the preamble (R61). -/
theorem ofNat_ne_frame {n : Nat} (h : n ≤ 0x99) : (BitVec.ofNat 8 n) ≠ 0xFD#8 ∧ (BitVec.ofNat 8 n) ≠ 0xFE#8 := by
  constructor <;> (intro e; have := congrArg BitVec.toNat e; simp at this; omega)

/-- An envelope around bytes that are neither 0xFD nor 0xFE has the shape of R105. -/
theorem frameShape_envelope (cmd : Byte) (rest : List Byte) (h : ∀ b ∈ cmd :: rest, b ≠ 0xFD#8 ∧ b ≠ 0xFE#8) :
    FrameShape (envelope cmd rest) :=
  ⟨cmd :: rest, by simp [envelope, preByte, dstByte, srcByte, eomByte], by simp, h⟩

/-- A packed pair of digits is neither 0xFD nor 0xFE (R61). -/
theorem packDigits_ne_frame {t u : Nat} (ht : t ≤ 9) (hu : u ≤ 9) : packDigits t u ≠ 0xFD#8 ∧ packDigits t u ≠ 0xFE#8 := by
  have := packDigits_toNat_le ht hu
  constructor <;> (intro e; rw [e] at this; simp at this)

/-- SCOPE_SEL under R5 holds neither 0xFD nor 0xFE. -/
theorem scopeSel_ne_frame {c : Cfg} (h : c.WellFormed) : ∀ b ∈ c.scopeSel, b ≠ 0xFD#8 ∧ b ≠ 0xFE#8 := by
  rcases h.1 with h | h | h <;> rw [h] <;> simp

/-- The fixed-mode frame has the shape of R105. -/
theorem frameShape_bldfix {c : Cfg} (h : c.WellFormed) : FrameShape (bldfix c) := by
  apply frameShape_envelope
  have := scopeSel_ne_frame h
  intro b hb
  simp at hb
  rcases hb with rfl | rfl | hb | rfl
  · decide
  · decide
  · exact this b hb
  · decide

/-- A select frame has the shape of R105. -/
theorem frameShape_bldsel {c : Cfg} (h : c.WellFormed) {slot F} (hs : bldsel c slot = .ok F) :
    FrameShape F := by
  obtain ⟨⟨h1, h2⟩, rfl⟩ := bldsel_eq_ok.mp hs
  apply frameShape_envelope
  have := scopeSel_ne_frame h
  intro b hb
  simp at hb
  rcases hb with rfl | rfl | hb | rfl
  · decide
  · decide
  · exact this b hb
  · exact ofNat_ne_frame (by have := h.2.1; omega)

/-- No byte of an encoded kHz field is 0xFD or 0xFE (R92, R61). -/
theorem khzField_ne_frame (n : Nat) : ∀ b ∈ (khzField n).bytes, b ≠ 0xFD#8 ∧ b ≠ 0xFE#8 := by
  intro b hb
  simp [khzField, Field5.bytes] at hb
  rcases hb with rfl | rfl | rfl | rfl | rfl
  · decide
  · exact packDigits_ne_frame (digit_le ..) (by omega)
  · exact packDigits_ne_frame (digit_le ..) (digit_le ..)
  · exact packDigits_ne_frame (digit_le ..) (digit_le ..)
  · decide

/-- An edge-write frame has the shape of R105. -/
theorem frameShape_bldedg {c : Cfg} (h : c.WellFormed) {seg slot l u F} (hs : bldedg c seg slot l u = .ok F) :
    FrameShape F := by
  obtain ⟨h0, ⟨h1, h2⟩, -, -, rfl⟩ := bldedg_eq_ok.mp hs
  apply frameShape_envelope
  intro b hb
  simp only [List.mem_cons, List.mem_append, List.not_mem_nil, or_false] at hb
  rcases hb with rfl | ((rfl | rfl | rfl) | hb) | hb
  · decide
  · decide
  · exact packDigits_ne_frame (by omega) (by omega)
  · exact ofNat_ne_frame (by have := h.2.1; omega)
  · exact khzField_ne_frame _ _ hb
  · exact khzField_ne_frame _ _ hb

end Sys2Proof.Machine
end

