-- ==== Sys2Proof/Laws/Step.lean ====
section
/-! SUPPORT. What a step can do, said once (spec/70_reset_and_hazards.md R202, R203). -/

namespace Sys2Proof.Machine

/-- What a step that answers a next state did: nothing, with no move pending; or it took the next move: an operation, a
reserved code, reset, a use of the snapshot, or the host's own call (R202, R203). -/
theorem step_cases {s t : State} (h : step s = .next t) :
    t = s ∨ ∃ mv rest, s.pending = mv :: rest ∧
      ((∃ p i, mv = .issue p ∧ decode p = .ok i ∧ exec i { s with pending := rest } = .next t) ∨
       t = rejectOpsel { s with pending := rest } ∨ (mv = .reset ∧ t = State.applyReset { s with pending := rest }) ∨
       t = { s with pending := rest } ∨ ∃ F, t = hostDrives F { s with pending := rest }) := by
  unfold step at h
  split at h
  · cases h; exact .inl rfl
  · rename_i p rest hp
    right; refine ⟨_, rest, hp, ?_⟩
    split at h
    · rename_i i hd; exact .inl ⟨p, i, rfl, hd, h⟩
    · cases h; exact .inr (.inl rfl)
  · rename_i rest hp; cases h; exact .inr ⟨_, _, hp, .inr (.inr (.inl ⟨rfl, rfl⟩))⟩
  · rename_i rest hp
    unfold hostReadsSnap at h
    split at h <;> cases h
    exact .inr ⟨_, _, hp, .inr (.inr (.inr (.inl rfl)))⟩
  · rename_i F rest hp; cases h; exact .inr ⟨_, _, hp, .inr (.inr (.inr (.inr ⟨F, rfl⟩)))⟩

end Sys2Proof.Machine
end

