-- ==== Sys2Proof/Tests/Slice0.lean ====
section
/-! SUPPORT. Tests on fixed values. Expected results are those of spec/95_test_vectors.md (derived there from the rules) unless
a comment names another source; the ROM is its fixture `ROM_REF`, which is not the hardware's. The theorems named
`test_witness_<Name>` show that the hypotheses of `Obligations.<Name>` can be met, each clause at a boundary value. -/

namespace Sys2Proof.Tests

open Sys2Proof.Machine

/-! ### The fixture -/

/-- A row of ROM_REF: CW, Digital, Phone, whole band. -/
def row (a b c d e f g h : Nat) : Vector Edge 4 := #v[⟨a, b⟩, ⟨c, d⟩, ⟨e, f⟩, ⟨g, h⟩]

/-- The two names of a mode code, as bytes. -/
def names (n d : List Byte) : Vector (List Byte) 2 := #v[n, d]

/-- ROM_REF (spec/95_test_vectors.md section 0). -/
def romRef : Table where
  edge := #v[row 472 475 474 478 475 479 472 479, row 1800 1840 1838 1843 1840 2000 1800 2000,
    row 3500 3570 3570 3600 3600 3800 3500 4000, row 5351 5354 5354 5358 5358 5367 5250 5450,
    row 7000 7040 7040 7080 7060 7200 7000 7300, row 10100 10130 10130 10150 10100 10150 10100 10150,
    row 14000 14070 14070 14100 14100 14350 14000 14350, row 18068 18095 18095 18110 18110 18168 18068 18168,
    row 21000 21070 21070 21150 21150 21450 21000 21450, row 24890 24915 24915 24930 24930 24990 24890 24990,
    row 28000 28070 28070 28150 28300 28600 28000 29700, row 50000 50100 50300 50350 50100 50300 50000 54000]
  name := #v[
    names [0x4C, 0x53, 0x42] [0x4C, 0x53, 0x42, 0x2D, 0x44],  -- LSB, LSB-D
    names [0x55, 0x53, 0x42] [0x55, 0x53, 0x42, 0x2D, 0x44],  -- USB, USB-D
    names [0x41, 0x4D] [0x41, 0x4D, 0x2D, 0x44],  -- AM, AM-D
    names [0x43, 0x57] [0x43, 0x57, 0x2D, 0x44],  -- CW, CW-D
    names [0x52, 0x54, 0x54, 0x59] [0x52, 0x54, 0x54, 0x59, 0x2D, 0x44],  -- RTTY, RTTY-D
    names [0x46, 0x4D] [0x46, 0x4D, 0x2D, 0x44],  -- FM, FM-D
    names [0x30, 0x36, 0x3F] [0x30, 0x36, 0x3F],  -- 06?, 06?
    names [0x43, 0x57, 0x2D, 0x52] [0x43, 0x57, 0x2D, 0x52, 0x2D, 0x44],  -- CW-R, CW-R-D
    names [0x52, 0x54, 0x54, 0x59, 0x2D, 0x52] [0x52, 0x54, 0x54, 0x59, 0x2D, 0x52, 0x2D, 0x44],  -- RTTY-R, RTTY-R-D
    names [0x30, 0x39, 0x3F] [0x30, 0x39, 0x3F],  -- 09?, 09?
    names [0x31, 0x30, 0x3F] [0x31, 0x30, 0x3F],  -- 10?, 10?
    names [0x31, 0x31, 0x3F] [0x31, 0x31, 0x3F],  -- 11?, 11?
    names [0x50, 0x53, 0x4B] [0x50, 0x53, 0x4B, 0x2D, 0x44],  -- PSK, PSK-D
    names [0x50, 0x53, 0x4B, 0x2D, 0x52] [0x50, 0x53, 0x4B, 0x2D, 0x52, 0x2D, 0x44]]  -- PSK-R, PSK-R-D
  seg := #v[1, 2, 3, 3, 4, 5, 6, 7, 8, 9, 10, 12]

/-- The spec's defaults, with ROUND_TIE = half_up. -/
def cfgUp : Cfg := { roundTie := .halfUp }

/-- The spec's defaults, with ROUND_TIE = half_even. -/
def cfgEven : Cfg := { roundTie := .halfEven }

/-- Between operations after reset, ROM_REF configured, the transport's coming answers given. -/
def st (answers : List Answer := []) (pending : List HostMove := []) : State :=
  { tbl := romRef, cfg := cfgUp, seq := .idle, snap := Snap.reset, err := 0, out := .nothing, calls := [],
    faultLog := [], answers := answers, served := 0, pending := pending }

/-- The result ports after a step. -/
def outOf (r : StepResult) : Option Result :=
  match r with
  | .next s => some s.out
  | .fault _ => none
  | .refused _ => none

/-- SEQ, ERR and SNAP after a step. -/
def regsOf (r : StepResult) : Option (Machine.Seq × BitVec 3 × Snap) :=
  match r with
  | .next s => some (s.seq, s.err, s.snap)
  | .fault _ => none
  | .refused _ => none

/-- The frames handed to the transport, oldest first, after a step. -/
def framesOf (r : StepResult) : Option (List (List Byte)) :=
  match r with
  | .next s => some (s.calls.map (·.frame))
  | .fault _ => none
  | .refused _ => none

/-- Echo and reply to the frequency request, the five frequency bytes given (fixture transport). -/
def frqReply (p : List Byte) : List Byte :=
  [0xFE, 0xFE, 0x98, 0xE0, 0x25, 0xFD, 0xFE, 0xFE, 0xE0, 0x98, 0x25] ++ p ++ [0xFD]

/-- Echo and reply to the mode request, mode and data byte given (fixture transport). -/
def modReply (m d : Byte) : List Byte :=
  [0xFE, 0xFE, 0x98, 0xE0, 0x26, 0xFD, 0xFE, 0xFE, 0xE0, 0x98, 0x26, m, d, 0x01, 0xFD]

/-- The reply to a setup frame, without echo: its bytes are drained and dropped. -/
def okReply : List Byte := [0xFE, 0xFE, 0xE0, 0x98, 0xFB, 0xFD]

/-- The radio of program P2: 14195.50 kHz, USB, data mode off, answering everything. -/
def radioP2 : List Answer :=
  [.bytes (frqReply [0x00, 0x55, 0x19, 0x14, 0x00]), .bytes (modReply 0x01 0x00), .bytes okReply, .bytes okReply,
   .bytes okReply]

/-- The radio of program P3: 14074.00 kHz, USB, data mode on. -/
def radioP3 : List Answer :=
  [.bytes (frqReply [0x00, 0x40, 0x07, 0x14, 0x00]), .bytes (modReply 0x01 0x01), .bytes okReply, .bytes okReply,
   .bytes okReply]

/-- The snapshot of program P2. -/
def snapP2 : Snap := { valid := true, f10 := 1419550, mode := 1, dflag := false, cls := 2, band := 6 }

/-- The snapshot of program P3. -/
def snapP3 : Snap := { valid := true, f10 := 1407400, mode := 1, dflag := true, cls := 1, band := 6 }

theorem test_romRef_wellFormed : romRef.WellFormed := by decide
theorem test_defaults_wellFormed : cfgUp.WellFormed ∧ cfgEven.WellFormed := by decide

/-! ### Well-formedness: an ill-formed term for each check (R32 port widths; R29; R5) -/

theorem test_wf_pack2_tens : ¬ (Instr.pack2 16 0).WellFormed := by decide
theorem test_wf_pack2_units : ¬ (Instr.pack2 0 16).WellFormed := by decide
theorem test_wf_enckhz : ¬ (Instr.enckhz (2 ^ 33)).WellFormed ∧ ¬ (Instr.enckhz (-(2 ^ 33) - 1)).WellFormed := by decide
theorem test_wf_bldsel : ¬ (Instr.bldsel 16).WellFormed := by decide
theorem test_wf_bldedg_seg : ¬ (Instr.bldedg 128 1 0 0).WellFormed := by decide
theorem test_wf_bldedg_slot : ¬ (Instr.bldedg 6 16 0 0).WellFormed := by decide
theorem test_wf_bldedg_edges :
    ¬ (Instr.bldedg 6 1 (2 ^ 33) 0).WellFormed ∧ ¬ (Instr.bldedg 6 1 0 (-(2 ^ 33) - 1)).WellFormed := by decide
theorem test_wf_tlookup : ¬ (Instr.tlookup 16 0).WellFormed ∧ ¬ (Instr.tlookup 0 4).WellFormed := by decide
theorem test_wf_twhole_tseg : ¬ (Instr.twhole 16).WellFormed ∧ ¬ (Instr.tseg 16).WellFormed := by decide
theorem test_wf_tname_clsmod : ¬ (Instr.tname 16 true).WellFormed ∧ ¬ (Instr.clsmod 16 true).WellFormed := by decide
theorem test_wf_clsbnd : ¬ (Instr.clsbnd (2 ^ 30)).WellFormed := by decide
theorem test_wf_edgdef : ¬ (Instr.edgdef 16 0).WellFormed ∧ ¬ (Instr.edgdef 0 4).WellFormed := by decide
theorem test_wf_edgofs : ¬ (Instr.edgofs (2 ^ 30) 0 0).WellFormed ∧ ¬ (Instr.edgofs 0 (2 ^ 31) 0).WellFormed ∧
    ¬ (Instr.edgofs 0 0 (-(2 ^ 31) - 1)).WellFormed := by decide
theorem test_wf_applyo :
    ¬ (Instr.applyo (2 ^ 31) 0).WellFormed ∧ ¬ (Instr.applyo 0 (2 ^ 31)).WellFormed := by decide

/-- R29: a ROM that breaks one of WF1 to WF5 is refused. -/
theorem test_wf_table :
    ¬ Table.WF1 { romRef with edge := romRef.edge.set 6 (row 0 0 0 0 0 0 14350 14000) } ∧
    ¬ Table.WF2 { romRef with edge := romRef.edge.set 6 (row 0 0 0 0 0 0 10150 14350) } ∧
    ¬ Table.WF3 { romRef with edge := romRef.edge.set 6 (row 0 100000 0 0 0 0 14000 14350) } ∧
    ¬ Table.WF4 { romRef with seg := romRef.seg.set 6 100 } ∧
    ¬ Table.WF5 { romRef with name := romRef.name.set 6 (names (List.replicate 9 0x41) [0x30, 0x36, 0x3F]) } := by decide

/-- R5: a configuration that breaks one constraint is refused. -/
theorem test_wf_cfg :
    ∀ c ∈ [{ cfgUp with scopeSel := [0x02] }, { cfgUp with nSlots := 0 }, { cfgUp with nSlots := 10 },
      { cfgUp with slot := 0 }, { cfgUp with slot := 4 }, { cfgUp with freqMinLen := 5 }, { cfgUp with modeOfs := 2 },
      { cfgUp with modeMinLen := 3 }], ¬ Cfg.WellFormed c := by decide

/-! ### Decoding: every code of R77, written out, with operands on the ports R32 names for it -/

theorem test_decode_bcd :
    decode { opsel := 0b00000001, a_t := 9, a_u := 15 } = .ok (.pack2 9 15) ∧
    decode { opsel := 0b00000010, a_byte := 0xFE } = .ok (.unpk2 0xFE) ∧
    decode { opsel := 0b00000011, a_v := 0x3FFFFFFFF } = .ok (.enckhz (-1)) ∧
    decode { opsel := 0b00000100, a_p := ⟨0, 0x55, 0x19, 0x14, 0⟩ } = .ok (.dec5 ⟨0, 0x55, 0x19, 0x14, 0⟩) := by decide

theorem test_decode_build :
    decode { opsel := 0b00010000 } = .ok .bldfrq ∧ decode { opsel := 0b00010001 } = .ok .bldmod ∧
    decode { opsel := 0b00010010 } = .ok .bldfix ∧ decode { opsel := 0b00010011, a_slot := 3 } = .ok (.bldsel 3) ∧
    decode { opsel := 0b00010100, a_seg := 100, a_slot := 2, a_lo := 0x200000000, a_hi := 0x1FFFFFFFF } =
      .ok (.bldedg 100 2 (-8589934592) 8589934591) := by decide

theorem test_decode_decoders :
    decode { opsel := 0b00011000, a_resp := [0xFD] } = .ok (.decfrq [0xFD]) ∧
    decode { opsel := 0b00011001, a_resp := [] } = .ok (.decmod []) := by decide

theorem test_decode_table :
    decode { opsel := 0b00100000, a_band := 12, a_ent := 3 } = .ok (.tlookup 12 3) ∧
    decode { opsel := 0b00100001, a_band := 15 } = .ok (.twhole 15) ∧
    decode { opsel := 0b00100010, a_mode := 14, a_dflag := 0 } = .ok (.tname 14 false) ∧
    decode { opsel := 0b00100011, a_band := 11 } = .ok (.tseg 11) := by decide

theorem test_decode_classifier_and_edge :
    decode { opsel := 0b00101000, a_mode := 3, a_dflag := 1 } = .ok (.clsmod 3 true) ∧
    decode { opsel := 0b00101001, a_f10 := 0x3FFFFFFF } = .ok (.clsbnd 1073741823) ∧
    decode { opsel := 0b00110000, a_band := 6, a_ent := 3 } = .ok (.edgdef 6 3) ∧
    decode { opsel := 0b00110001, a_f10 := 1407400, a_ofs := 0xFFFFFFFE, a_wid := 3 } =
      .ok (.edgofs 1407400 (-2) 3) := by decide

theorem test_decode_sequencer :
    decode { opsel := 0b01000000 } = .ok .query ∧ decode { opsel := 0b01000001 } = .ok .applyd ∧
    decode { opsel := 0b01000010, a_ofs := 0x80000000, a_wid := 0x7FFFFFFF } =
      .ok (.applyo (-2147483648) 2147483647) := by decide

/-- R78: the ends of every reserved range. -/
theorem test_decode_reserved : ∀ c ∈ ([0x00, 0x05, 0x0F, 0x15, 0x17, 0x1A, 0x1F, 0x24, 0x27, 0x2A, 0x2F, 0x32, 0x3F, 0x43,
    0xFF] : List (BitVec 8)), decode { opsel := c } = .error (.reservedOpsel c) := by decide

/-- The table's word for BLDEDG, and a reserved one (spec/opcode_table.json). -/
theorem test_decodeTableWord :
    decodeTableWord 8 0x14 = some (.bldedg 0 0 0 0) ∧ decodeTableWord 8 0x15 = none := by decide

/-- A word placed for the next step is the operation that step runs. -/
theorem test_step_runs_placed_word :
    outOf (step (st.withFetchWord 8 0x10)) = some (.frame [0xFE, 0xFE, 0x98, 0xE0, 0x25, 0xFD]) := by decide

/-! ### BCD unit (section 2.1) -/

theorem test_pack2 : outOf (exec (.pack2 1 2) st) = some (.byte 0x12) := by decide
theorem test_pack2_raises : outOf (exec (.pack2 0 15) st) = some (.fault .valueOutOfRange) := by decide
theorem test_unpk2 : outOf (exec (.unpk2 0x98) st) = some (.digits 9 8 true) := by decide
theorem test_unpk2_not_decimal : outOf (exec (.unpk2 0xFE) st) = some (.digits 15 14 false) := by decide
theorem test_enckhz : outOf (exec (.enckhz 50313) st) = some (.payload ⟨0x00, 0x30, 0x31, 0x50, 0x00⟩) := by decide
theorem test_enckhz_raises : outOf (exec (.enckhz 100000) st) = some (.fault .valueOutOfRange) := by decide
theorem test_dec5 : outOf (exec (.dec5 ⟨0x90, 0x78, 0x56, 0x34, 0x12⟩) st) = some (.freq 123456789) := by decide
theorem test_dec5_dropped_digit_checked :
    outOf (exec (.dec5 ⟨0x0A, 0x00, 0x00, 0x00, 0x00⟩) st) = some (.fault .malformedResponse) := by decide

/-! ### Frame encoder (section 2.2) -/

theorem test_bldmod : outOf (exec .bldmod st) = some (.frame [0xFE, 0xFE, 0x98, 0xE0, 0x26, 0xFD]) := by decide
theorem test_bldfix_without_scopeSel : outOf (exec .bldfix { st with cfg := { cfgUp with scopeSel := [] } }) =
    some (.frame [0xFE, 0xFE, 0x98, 0xE0, 0x27, 0x14, 0x01, 0xFD]) := by decide
theorem test_bldsel : outOf (exec (.bldsel 3) st) =
    some (.frame [0xFE, 0xFE, 0x98, 0xE0, 0x27, 0x16, 0x00, 0x03, 0xFD]) := by decide
theorem test_bldsel_raises : outOf (exec (.bldsel 4) st) = some (.fault .valueOutOfRange) := by decide
theorem test_bldedg : outOf (exec (.bldedg 10 3 28000 28070) st) =
    some (.frame [0xFE, 0xFE, 0x98, 0xE0, 0x27, 0x1E, 0x10, 0x03, 0x00, 0x00, 0x00, 0x28, 0x00, 0x00, 0x00, 0x07, 0x28,
      0x00, 0xFD]) := by decide
theorem test_bldedg_raises : outOf (exec (.bldedg 6 1 14073 100000) st) = some (.fault .valueOutOfRange) := by decide

/-! ### Frame decoder (section 2.3) -/

theorem test_decfrq_selector_byte :
    outOf (exec (.decfrq (frqReply [0x00, 0x00, 0x55, 0x19, 0x14, 0x00])) st) = some (.freq 1419550) := by decide
theorem test_decfrq_echo_only :
    outOf (exec (.decfrq [0xFE, 0xFE, 0x98, 0xE0, 0x25, 0xFD]) st) = some (.fault .malformedResponse) := by decide
theorem test_decmod : outOf (exec (.decmod (modReply 0x12 0xFC)) st) = some (.mode 12 false) := by decide
theorem test_decmod_code_14 :
    outOf (exec (.decmod (modReply 0x14 0x00)) st) = some (.fault .malformedResponse) := by decide

/-! ### Table ROM (section 2.4) -/

theorem test_tlookup : outOf (exec (.tlookup 6 1) st) = some (.edges 14070 14100) := by decide
theorem test_tlookup_raises : outOf (exec (.tlookup 12 0) st) = some (.fault .illegalOperation) := by decide
theorem test_twhole : outOf (exec (.twhole 11) st) = some (.edges 50000 54000) := by decide
theorem test_tname : outOf (exec (.tname 1 true) st) = some (.name [0x55, 0x53, 0x42, 0x2D, 0x44]) := by decide
theorem test_tseg : outOf (exec (.tseg 3) st) = some (.segment 3) := by decide

/-! ### Classifier and edge unit (sections 2.5, 2.6) -/

/-- All 28 cases. -/
theorem test_clsmod :
    (List.range 14).map (fun m => outOf (exec (.clsmod m false) st)) =
      ([.phone, .phone, .phone, .cw, .digital, .phone, .phone, .cw, .digital, .phone, .phone, .phone, .digital,
        .digital] : List ModeClass).map (fun c => some (.cls c)) ∧
    (List.range 14).map (fun m => outOf (exec (.clsmod m true) st)) =
      List.replicate 14 (some (.cls .digital)) := by decide
theorem test_clsbnd_upper_edge : outOf (exec (.clsbnd 1435000) st) = some (.band 6) := by decide
theorem test_clsbnd_raises : outOf (exec (.clsbnd 5400001) st) = some (.fault .frequencyOutOfRange) := by decide
theorem test_edgdef : outOf (exec (.edgdef 10 1) st) = some (.edges 28070 28150) := by decide
theorem test_edgdef_class_3 : outOf (exec (.edgdef 6 3) st) = some (.fault .illegalOperation) := by decide
theorem test_edgofs_tie_up : outOf (exec (.edgofs 50 0 1) st) = some (.edges 1 2) := by decide
theorem test_edgofs_tie_even :
    outOf (exec (.edgofs 1407450 1 5) { st with cfg := cfgEven }) = some (.edges 14073 14078) := by decide

/-! ### Sequencer (section 3) -/

/-- P4, second operation. -/
theorem test_query : regsOf (exec .query (st radioP2)) = some (.ready, 0, snapP2) := by decide
/-- P4, first operation: only the echo comes back. -/
theorem test_query_silent_radio :
    regsOf (exec .query (st [.bytes [0xFE, 0xFE, 0x98, 0xE0, 0x25, 0xFD]])) = some (.error, 2, Snap.reset) := by decide
/-- P2. -/
theorem test_applyd : framesOf (exec .applyd (st radioP2)) = some
    [[0xFE, 0xFE, 0x98, 0xE0, 0x25, 0xFD], [0xFE, 0xFE, 0x98, 0xE0, 0x26, 0xFD],
     [0xFE, 0xFE, 0x98, 0xE0, 0x27, 0x14, 0x00, 0x01, 0xFD], [0xFE, 0xFE, 0x98, 0xE0, 0x27, 0x16, 0x00, 0x01, 0xFD],
     [0xFE, 0xFE, 0x98, 0xE0, 0x27, 0x1E, 0x06, 0x01, 0x00, 0x00, 0x10, 0x14, 0x00, 0x00, 0x00, 0x35, 0x14, 0x00,
      0xFD]] := by decide
/-- P5, case 2: unavailable at T3. -/
theorem test_applyd_unavailable_midway :
    regsOf (exec .applyd (st (radioP2.take 3 ++ [.unavailable]))) = some (.error, 1, snapP2) := by decide
/-- P3, first operation. -/
theorem test_applyo : outOf (exec (.applyo 1 5) (st radioP3)) = some (.edges 14073 14078) := by decide
/-- P3, second operation. -/
theorem test_applyo_out_of_range :
    regsOf (exec (.applyo 1 85927) (st radioP3)) = some (.error, 4, snapP3) := by decide

/-! ### Witnesses: decoding and the step -/

/-- Every bounded port at the end of its range. -/
theorem test_witness_DecodeOfEncode :
    (Instr.pack2 15 15).WellFormed ∧ (Instr.enckhz (-8589934592)).WellFormed ∧
    (Instr.bldedg 127 15 8589934591 (-8589934592)).WellFormed ∧ (Instr.tlookup 15 3).WellFormed ∧
    (Instr.tname 15 true).WellFormed ∧ (Instr.clsbnd 1073741823).WellFormed ∧ (Instr.edgdef 15 3).WellFormed ∧
    (Instr.edgofs 1073741823 2147483647 (-2147483648)).WellFormed := by decide

theorem test_witness_DecodedIsWellFormed :
    decode { opsel := 0x20, a_band := 15, a_ent := 3 } = .ok (.tlookup 15 3) := by decide

theorem test_witness_StepRunsPresentedOperation :
    (st [] [.issue { opsel := 0x10 }]).pending = [.issue { opsel := 0x10 }] ∧
    decode { opsel := 0x10 } = .ok .bldfrq := by decide

/-- The lowest and the highest reserved code, and the two beside the first block of codes. -/
theorem test_witness_ReservedOpselRaisesIllegalOperation :
    ∀ c ∈ ([0x00, 0x05, 0xFF] : List (BitVec 8)),
      (st [] [.issue { opsel := c }]).pending = [.issue { opsel := c }] ∧
      c.toNat ∉ [0x01, 0x02, 0x03, 0x04, 0x10, 0x11, 0x12, 0x13, 0x14, 0x18, 0x19, 0x20, 0x21, 0x22, 0x23, 0x28,
        0x29, 0x30, 0x31, 0x40, 0x41, 0x42] ∧
      outOf (step (st [] [.issue { opsel := c }])) = some (.fault .illegalOperation) := by decide

theorem test_witness_StepWaitsForTheHost : st.pending = [] := rfl

/-- One state for each clause. -/
theorem test_witness_SnapReadStopsExactlyWhileInvalid :
    ((st [] [.readSnap]).pending = [.readSnap] ∧ (st [] [.readSnap]).snap.valid = false) ∧
    ({ st [] [.readSnap] with snap := snapP2 }).pending = [.readSnap] ∧
    ({ st [] [.readSnap] with snap := snapP2 }).snap.valid = true := by decide

theorem test_witness_HostCallLeavesBlockAlone :
    (st [] [.drive [0xFD], .reset]).pending = [.drive [0xFD], .reset] := by decide

theorem test_witness_ResetMoveRestoresRegisters :
    (st [] [.reset, .readSnap]).pending = [.reset, .readSnap] := by decide

/-! ### Witnesses: the BCD unit, the encoder and the decoders -/

/-- Both digits at 9, then each just above. -/
theorem test_witness_Pack2PacksDigitsOrRaises :
    outOf (exec (.pack2 9 9) st) = some (.byte 0x99) ∧
    outOf (exec (.pack2 10 0) st) = some (.fault .valueOutOfRange) ∧
    outOf (exec (.pack2 0 10) st) = some (.fault .valueOutOfRange) := by decide

theorem test_witness_Unpk2OfPack2 : outOf (exec (.unpk2 0x99) st) = some (.digits 9 9 true) := by decide

/-- The two ends of the range, and just outside each. -/
theorem test_witness_EnckhzEncodesOrRaises :
    outOf (exec (.enckhz 0) st) = some (.payload ⟨0x00, 0x00, 0x00, 0x00, 0x00⟩) ∧
    outOf (exec (.enckhz 99999) st) = some (.payload ⟨0x00, 0x90, 0x99, 0x99, 0x00⟩) ∧
    outOf (exec (.enckhz (-1)) st) = some (.fault .valueOutOfRange) := by decide

/-- Every nibble 9, and the dropped nibble at 10. -/
theorem test_witness_Dec5WeighsNibblesOrRaises :
    (∀ b ∈ ([0x99, 0x99, 0x99, 0x99, 0x99] : List Byte), b.toNat / 16 ≤ 9 ∧ b.toNat % 16 ≤ 9) ∧
    outOf (exec (.dec5 ⟨0x99, 0x99, 0x99, 0x99, 0x99⟩) st) = some (.freq 999999999) ∧
    (∃ b ∈ ([0x00, 0x00, 0x00, 0x00, 0xA0] : List Byte), 9 < b.toNat / 16 ∨ 9 < b.toNat % 16) ∧
    outOf (exec (.dec5 ⟨0x00, 0x00, 0x00, 0x00, 0xA0⟩) st) = some (.fault .malformedResponse) := by decide

/-- The largest kHz value, with nothing before it. -/
theorem test_witness_KhzRoundTrip :
    st.cfg.freqMinLen ≤ ([] : List Byte).length + 6 ∧
    outOf (exec (.decfrq [0x00, 0x90, 0x99, 0x99, 0x00, 0xFD]) st) = some (.freq 9999900) := by decide

theorem test_witness_BcdUnitIsInjective :
    pack2 9 9 = pack2 9 9 ∧ enckhz 99999 = enckhz 99999 ∧ exec (.unpk2 0xFF) st = exec (.unpk2 0xFF) st ∧
    outOf (exec (.unpk2 0xFF) st) = some (.digits 15 15 false) :=
  ⟨rfl, rfl, rfl, by decide⟩

/-- Slots 1 and N_SLOTS, 0 and N_SLOTS + 1. -/
theorem test_witness_SelectFrameOrRaises :
    outOf (exec (.bldsel 1) st) = some (.frame [0xFE, 0xFE, 0x98, 0xE0, 0x27, 0x16, 0x00, 0x01, 0xFD]) ∧
    outOf (exec (.bldsel 3) st) = some (.frame [0xFE, 0xFE, 0x98, 0xE0, 0x27, 0x16, 0x00, 0x03, 0xFD]) ∧
    outOf (exec (.bldsel 0) st) = some (.fault .valueOutOfRange) ∧
    outOf (exec (.bldsel 4) st) = some (.fault .valueOutOfRange) := by decide

/-- Every operand at the end of its range, the lower edge above the upper one; then each operand just outside. -/
theorem test_witness_EdgeWriteFrameOrRaises :
    outOf (exec (.bldedg 99 1 99999 0) st) = some (.frame [0xFE, 0xFE, 0x98, 0xE0, 0x27, 0x1E, 0x99, 0x01, 0x00, 0x90,
      0x99, 0x99, 0x00, 0x00, 0x00, 0x00, 0x00, 0x00, 0xFD]) ∧
    ∀ i ∈ [Instr.bldedg 100 1 0 0, .bldedg 6 0 0 0, .bldedg 6 4 0 0, .bldedg 6 1 (-1) 5, .bldedg 6 1 100000 5,
      .bldedg 6 1 0 (-1), .bldedg 6 1 0 100000], outOf (exec i st) = some (.fault .valueOutOfRange) := by decide

/-- A frame of each length. -/
theorem test_witness_BuiltFramesHaveEnvelope :
    st.cfg.WellFormed ∧ outOf (exec .bldfrq st) = some (.frame [0xFE, 0xFE, 0x98, 0xE0, 0x25, 0xFD]) ∧
    outOf (exec .bldfix st) = some (.frame [0xFE, 0xFE, 0x98, 0xE0, 0x27, 0x14, 0x00, 0x01, 0xFD]) := by decide

/-- The shortest response; a nibble that is not a digit; one byte too short; another terminator. -/
theorem test_witness_DecfrqDecodesOrRaises :
    outOf (exec (.decfrq ([] ++ [0x12, 0x34, 0x56, 0x78, 0x90, 0xFD])) st) = some (.freq 907856341) ∧
    outOf (exec (.decfrq [0xFE, 0xFE, 0x98, 0xE0, 0x25, 0xFD]) st) = some (.fault .malformedResponse) ∧
    outOf (exec (.decfrq [0x00, 0x00, 0x00, 0x00, 0xFD]) st) = some (.fault .malformedResponse) ∧
    outOf (exec (.decfrq [0x12, 0x34, 0x56, 0x78, 0x90, 0xFE]) st) = some (.fault .malformedResponse) := by decide

/-- The shortest response, with the highest code; code 14; a nibble that is not a digit; one byte too short; another
terminator. -/
theorem test_witness_DecmodDecodesOrRaises :
    ([0x01] : List Byte).length + 3 = st.cfg.modeOfs ∧
    outOf (exec (.decmod ([] ++ [0x13, 0x03] ++ [0x01] ++ [0xFD])) st) = some (.mode 13 true) ∧
    outOf (exec (.decmod ([] ++ [0x14, 0x00] ++ [0x01] ++ [0xFD])) st) = some (.fault .malformedResponse) ∧
    outOf (exec (.decmod ([] ++ [0x0C, 0x00] ++ [0x01] ++ [0xFD])) st) = some (.fault .malformedResponse) ∧
    outOf (exec (.decmod [0x01, 0x00, 0xFD]) st) = some (.fault .malformedResponse) ∧
    outOf (exec (.decmod [0x01, 0x00, 0x01, 0xFE]) st) = some (.fault .malformedResponse) := by decide

/-- The shortest tails the two decoders read. -/
theorem test_witness_DecodersReadOnlyTheEnd :
    st.cfg.WellFormed ∧ st.cfg.freqMinLen ≤ ([0x00, 0x00, 0x00, 0x00, 0x00, 0xFD] : List Byte).length ∧
    st.cfg.modeMinLen ≤ ([0x01, 0x00, 0x01, 0xFD] : List Byte).length := by decide

/-! ### Witnesses: the table, the classifier and the edge unit -/

/-- The last entry of the last band, and the first band that does not exist, the entry at either end. -/
theorem test_witness_TlookupReadsEntryOrRaises :
    outOf (exec (.tlookup 11 3) st) = some (.edges 50000 54000) ∧
    outOf (exec (.tlookup 12 0) st) = some (.fault .illegalOperation) ∧
    outOf (exec (.tlookup 12 3) st) = some (.fault .illegalOperation) := by decide

theorem test_witness_TwholeReadsWholeBandOrRaises :
    outOf (exec (.twhole 0) st) = some (.edges 472 479) ∧
    outOf (exec (.twhole 12) st) = some (.fault .illegalOperation) := by decide

theorem test_witness_TnameReadsNameOrRaises :
    outOf (exec (.tname 13 false) st) = some (.name [0x50, 0x53, 0x4B, 0x2D, 0x52]) ∧
    outOf (exec (.tname 14 false) st) = some (.fault .illegalOperation) := by decide

theorem test_witness_UnnamedModesOfConfiguredRom : State.reset.tbl = Config.rom.tbl := rfl

theorem test_witness_TsegReadsSegmentOrRaises :
    outOf (exec (.tseg 11) st) = some (.segment 12) ∧
    outOf (exec (.tseg 12) st) = some (.fault .illegalOperation) := by decide

theorem test_witness_ClsmodClassifiesOrRaises :
    outOf (exec (.clsmod 13 false) st) = some (.cls .digital) ∧
    outOf (exec (.clsmod 14 false) st) = some (.fault .illegalOperation) := by decide

/-- An upper edge, one unit above it, and above the last band. -/
theorem test_witness_ClsbndFindsFirstBandOrRaises :
    outOf (exec (.clsbnd 47900) st) = some (.band 0) ∧ outOf (exec (.clsbnd 47901) st) = some (.band 1) ∧
    outOf (exec (.clsbnd 5400000) st) = some (.band 11) ∧
    (∀ b : Fin 12, st.tbl.edge[b][3].hi * 100 < 5400001) := by decide

/-- Both ends of a whole band. -/
theorem test_witness_ClsbndFindsContainingBand :
    st.tbl.WellFormed ∧ outOf (exec (.clsbnd 1400000) st) = some (.band 6) ∧
    outOf (exec (.clsbnd 1435000) st) = some (.band 6) := ⟨test_romRef_wellFormed, by decide, by decide⟩

theorem test_witness_EdgdefReadsEntryOrRaises :
    outOf (exec (.edgdef 11 2) st) = some (.edges 50100 50300) ∧
    outOf (exec (.edgdef 11 3) st) = some (.fault .illegalOperation) ∧
    outOf (exec (.edgdef 12 0) st) = some (.fault .illegalOperation) := by decide

/-- Just under a tie, just over it, and the ties the two settings treat alike and differently. -/
theorem test_witness_EdgofsRoundsAndOffsets :
    outOf (exec (.edgofs (100 * 14074 + 49) 0 10) st) = some (.edges 14074 14084) ∧
    outOf (exec (.edgofs (100 * 14074 + 51) 0 10) st) = some (.edges 14075 14085) ∧
    outOf (exec (.edgofs (100 * 14074 + 50) 1 5) st) = some (.edges 14074 14079) ∧
    outOf (exec (.edgofs (100 * 14073 + 50) 1 5) { st with cfg := cfgEven }) = some (.edges 14073 14078) := by decide

/-! ### Witnesses: the sequencer -/

/-- The replies of program P2. -/
def r1P2 : List Byte := frqReply [0x00, 0x55, 0x19, 0x14, 0x00]
/-- The replies of program P2. -/
def r2P2 : List Byte := modReply 0x01 0x00
/-- The select frame for slot 1. -/
def selP2 : List Byte := [0xFE, 0xFE, 0x98, 0xE0, 0x27, 0x16, 0x00, 0x01, 0xFD]
/-- The edge-write frame of program P2. -/
def edgP2 : List Byte :=
  [0xFE, 0xFE, 0x98, 0xE0, 0x27, 0x1E, 0x06, 0x01, 0x00, 0x00, 0x10, 0x14, 0x00, 0x00, 0x00, 0x35, 0x14, 0x00, 0xFD]

theorem test_witness_QueryStoresAndReturnsSnapshot :
    QueryGoesThrough (st radioP2) r1P2 r2P2 1419550 1 false .phone 6 := by constructor <;> decide

theorem test_setup_builds : SetupBuilds (st radioP2) 6 14100 14350 selP2 edgP2 :=
  ⟨by decide, 6, by decide, by decide⟩

theorem test_witness_ApplydSendsDefaultEdges :
    QueryGoesThrough (st radioP2) r1P2 r2P2 1419550 1 false .phone 6 ∧
    edgdef (st radioP2).tbl 6 ModeClass.phone.code.toNat = .ok ⟨14100, 14350⟩ ∧
    SetupBuilds (st radioP2) 6 14100 14350 selP2 edgP2 ∧
    (st radioP2).answerAt 2 (bldfix (st radioP2).cfg) = .bytes okReply ∧
    (st radioP2).answerAt 3 selP2 = .bytes okReply ∧ (st radioP2).answerAt 4 edgP2 = .bytes okReply :=
  ⟨test_witness_QueryStoresAndReturnsSnapshot, by decide, test_setup_builds, by decide, by decide, by decide⟩

/-- Offset 96 and width 250 give the same edges as the table's Phone entry: 14195.50 kHz rounds up to 14196. -/
theorem test_witness_ApplyoSendsOffsetEdges :
    QueryGoesThrough (st radioP2) r1P2 r2P2 1419550 1 false .phone 6 ∧
    edgofs (st radioP2).cfg 1419550 96 250 = (14100, 14350) ∧
    SetupBuilds (st radioP2) 6 14100 14350 selP2 edgP2 ∧
    (st radioP2).answerAt 2 (bldfix (st radioP2).cfg) = .bytes okReply ∧
    (st radioP2).answerAt 3 selP2 = .bytes okReply ∧ (st radioP2).answerAt 4 edgP2 = .bytes okReply :=
  ⟨test_witness_QueryStoresAndReturnsSnapshot, by decide, test_setup_builds, by decide, by decide, by decide⟩

/-- One state for each of the five ways: Q1 unavailable, Q2 malformed, Q3 unavailable, Q4 malformed, Q5 above the last
band (P4, P5, P6). -/
theorem test_witness_QueryStepFaults :
    (st [.unavailable]).answerAt 0 bldfrq = .unavailable ∧
    ((st [.bytes []]).answerAt 0 bldfrq = .bytes [] ∧ decfrq cfgUp [] = .error .malformedResponse) ∧
    ((st [.bytes r1P2, .unavailable]).answerAt 0 bldfrq = .bytes r1P2 ∧ decfrq cfgUp r1P2 = .ok 1419550 ∧
      (st [.bytes r1P2, .unavailable]).answerAt 1 bldmod = .unavailable) ∧
    ((st [.bytes r1P2, .bytes [0xFD]]).answerAt 1 bldmod = .bytes [0xFD] ∧
      decmod cfgUp [0xFD] = .error .malformedResponse) ∧
    (decfrq cfgUp (frqReply [0x01, 0x00, 0x00, 0x54, 0x00]) = .ok 5400000 ∧
      decfrq cfgUp (frqReply [0x10, 0x00, 0x00, 0x54, 0x00]) = .ok 5400001 ∧
      decmod cfgUp r2P2 = .ok (1, false) ∧ clsbnd romRef 5400001 = .error .frequencyOutOfRange) := by decide

/-- The upper edge just outside, at 100000 kHz (X10). -/
theorem test_witness_ApplyRejectsEdgesBeforeSetup :
    QueryGoesThrough (st radioP2) r1P2 r2P2 1419550 1 false .phone 6 ∧
    applyEdges (.applyo 96 85900) (st radioP2) 1419550 .phone 6 = some (14100, 100000) :=
  ⟨test_witness_QueryStoresAndReturnsSnapshot, by decide⟩

/-- One state for each of the three setup frames that can fail. -/
theorem test_witness_ApplyTransportFaultKeepsSentFrames :
    applyEdges .applyd (st radioP2) 1419550 .phone 6 = some (14100, 14350) ∧
    ((st (radioP2.take 2 ++ [.unavailable])).answerAt 2 (bldfix cfgUp) = .unavailable ∧
      QueryGoesThrough (st (radioP2.take 2 ++ [.unavailable])) r1P2 r2P2 1419550 1 false .phone 6) ∧
    ((st (radioP2.take 3 ++ [.unavailable])).answerAt 2 (bldfix cfgUp) = .bytes okReply ∧
      (st (radioP2.take 3 ++ [.unavailable])).answerAt 3 selP2 = .unavailable) ∧
    ((st (radioP2.take 4 ++ [.unavailable])).answerAt 3 selP2 = .bytes okReply ∧
      (st (radioP2.take 4 ++ [.unavailable])).answerAt 4 edgP2 = .unavailable) :=
  ⟨by decide, ⟨by decide, by constructor <;> decide⟩, by decide, by decide⟩

/-- One operation that ends Ready, one that ends in Error. -/
theorem test_witness_SequencerEndsReadyOrError :
    isSequencer .query = true ∧ regsOf (exec .query (st radioP2)) = some (.ready, 0, snapP2) ∧
    regsOf (exec .query (st [.unavailable])) = some (.error, 1, Snap.reset) := by decide

theorem test_witness_SequencerNeverIllegal :
    isSequencer (.applyo 0 3) = true ∧ ∃ t, exec (.applyo 0 3) (st radioP2) = .next t := ⟨rfl, _, rfl⟩

theorem test_witness_ApplydNeverOutOfRange :
    (st radioP2).tbl.WellFormed ∧ (st radioP2).cfg.WellFormed ∧ ∃ t, exec .applyd (st radioP2) = .next t :=
  ⟨test_romRef_wellFormed, by decide, _, rfl⟩

theorem test_witness_FramesSentInFixedOrder :
    (∃ t, exec .applyd (st radioP2) = .next t) ∧ framesOf (exec .bldfrq (st radioP2)) = some [] ∧
    framesOf (exec .query (st radioP2)) =
      some [[0xFE, 0xFE, 0x98, 0xE0, 0x25, 0xFD], [0xFE, 0xFE, 0x98, 0xE0, 0x26, 0xFD]] :=
  ⟨⟨_, rfl⟩, by decide, by decide⟩

theorem test_witness_PureOperationsWriteOnlyResults :
    isSequencer (.pack2 10 0) = false ∧ (∃ t, exec (.pack2 10 0) (st radioP2) = .next t) ∧
    isSequencer (.pack2 9 9) = false ∧ ∃ t, exec (.pack2 9 9) (st radioP2) = .next t :=
  ⟨rfl, ⟨_, rfl⟩, rfl, _, rfl⟩

theorem test_witness_SequencerFrame :
    isSequencer .applyd = true ∧ ∃ t, exec .applyd (st radioP2) = .next t := ⟨rfl, _, rfl⟩

/-- Two states that agree on TBL and CFG and on nothing else. -/
theorem test_witness_PureResultsDependOnRomAndConfig :
    let s2 := { st radioP2 [.reset] with seq := .error, snap := snapP2, err := 4, served := 7 }
    isSequencer (.clsbnd 1435000) = false ∧ st.tbl = s2.tbl ∧ st.cfg = s2.cfg ∧
    (∃ t, exec (.clsbnd 1435000) st = .next t) ∧ ∃ t, exec (.clsbnd 1435000) s2 = .next t :=
  ⟨rfl, rfl, rfl, ⟨_, rfl⟩, _, rfl⟩

/-- A query from reset, and the same one from Error with another snapshot. -/
theorem test_witness_SequencerIgnoresOldRegisters :
    isSequencer .query = true ∧ (∃ t, exec .query (st radioP2) = .next t) ∧
    regsOf (exec .query { st radioP2 with seq := .error, snap := snapP3, err := 4 }) = some (.ready, 0, snapP2) :=
  ⟨rfl, ⟨_, rfl⟩, by decide⟩

/-! ### Witnesses: invariants -/

/-- The state an apply ends in when its edges cannot be encoded: Error with ERR = 4 and a snapshot. -/
def rejected : State := { st with seq := .error, err := 4, snap := snapP3 }

theorem test_witness_StepKeepsRegisterInvariant :
    st.Inv ∧ rejected.Inv ∧ ({ st with seq := .ready, snap := snapP2 } : State).Inv ∧
    ∃ t, step { rejected with pending := [.issue { opsel := 0x40 }] } = .next t :=
  ⟨⟨⟨rfl, rfl⟩, nofun⟩,
   ⟨⟨by decide, fun _ => rfl⟩, fun _ => ⟨by decide, by decide, ⟨.digital, by decide, by decide⟩, by decide, by decide⟩⟩,
   ⟨⟨rfl, rfl⟩, fun _ => ⟨by decide, by decide, ⟨.phone, by decide, by decide⟩, by decide, by decide⟩⟩, _, rfl⟩

/-- A record that already holds a call of CIVB's own and one of the host's. -/
theorem test_witness_StepKeepsCallsWellShaped :
    let s := { st radioP2 [.issue { opsel := 0x41 }] with
      calls := [frqCall .unavailable, { caller := .host, frame := [0x00], answer := .unavailable, seq := .error }] }
    s.cfg.WellFormed ∧ s.CallsOk ∧ ∃ t, step s = .next t := by
  refine ⟨by decide, ?_, _, rfl⟩
  intro k hk hb
  simp only [List.mem_cons, List.not_mem_nil, or_false] at hk
  rcases hk with rfl | rfl
  · exact ⟨⟨[0x25], rfl, by simp, by simp⟩, .inl ⟨rfl, .inl rfl⟩⟩
  · cases hb

theorem test_witness_StepKeepsRomAndConfig :
    ∃ t, step (st radioP2 [.issue { opsel := 0x41 }]) = .next t := ⟨_, rfl⟩

theorem test_witness_StepOnlyExtendsRecords :
    ∃ t, step (st radioP2 [.drive [0xFE], .reset]) = .next t := ⟨_, rfl⟩

/-- The widest edges EDGOFS can be asked for. -/
theorem test_witness_ResultsFitPorts :
    (Instr.edgofs 1073741823 (-2147483648) 2147483647).WellFormed ∧ st.tbl.WellFormed ∧ st.cfg.WellFormed ∧
    ∃ t, exec (.edgofs 1073741823 (-2147483648) 2147483647) st = .next t :=
  ⟨by decide, test_romRef_wellFormed, by decide, _, rfl⟩

end Sys2Proof.Tests
end

section
/-! PROOFS. How operations reach the block and how each of them ends (spec/00_scope.md R11, spec/60_exceptions.md R178). -/

namespace Sys2Proof.Machine

/-- A step on a move that presents an operation runs that operation, the move taken (R11, R202). -/
theorem step_issue_of_decode {s : State} {p : Ports} {rest : List HostMove} {i : Instr}
    (hp : s.pending = .issue p :: rest) (hd : decode p = .ok i) : step s = exec i { s with pending := rest } := by
  simp only [step, hp, hd]

/-- Settles O5: the equation of `step` for a presented operation. -/
theorem stepRunsPresentedOperation : Obligations.StepRunsPresentedOperation :=
  fun _ _ _ _ => step_issue_of_decode

/-- No operation stops the machine: every arm of `exec` answers a next state (R178). -/
theorem exec_answers (i : Instr) (s : State) : ∃ t, exec i s = .next t := by
  cases i <;> exact ⟨_, rfl⟩

/-- An operation outside the sequencer leaves a value or a fault on the result ports (R11, R178). -/
theorem exec_pure_out {i : Instr} {s t : State} (hi : isSequencer i = false) (h : exec i s = .next t) :
    t.out.IsValue ∨ ∃ k, t.out = .fault k := by
  rcases exec_pure_cases hi h with ⟨k, rfl⟩ | ⟨v, hv, rfl⟩
  · exact .inr ⟨k, rfl⟩
  · exact .inl hv

/-- So does an operation of the sequencer: every way it ends presents a snapshot or edges, or enters Error (R154 to R157,
R178). -/
theorem exec_sequencer_out {i : Instr} {s t : State} (hi : isSequencer i = true) (h : exec i s = .next t) :
    t.out.IsValue ∨ ∃ k, t.out = .fault k := by
  rcases exec_sequencer_cases hi h with
    ⟨v, k, -, rfl⟩ | ⟨_, _, _, _, _, _, _, -, ⟨-, rfl⟩ | ⟨lower, upper, -, -, ⟨v, k, -, rfl⟩ | ⟨v, -, rfl⟩⟩⟩
  · exact .inr ⟨k, rfl⟩               -- a query step raises
  · exact .inl ⟨nofun, nofun⟩         -- QUERY presents the fresh snapshot
  · exact .inr ⟨k, rfl⟩               -- the tail of an apply raises
  · exact .inl ⟨nofun, nofun⟩         -- an apply presents its edges

/-- Every operation, in every state, answers a next state with a value or a fault on the result ports (R11, R178). -/
theorem exec_returns (i : Instr) (s : State) :
    ∃ t, exec i s = .next t ∧ (t.out.IsValue ∨ ∃ k, t.out = .fault k) := by
  obtain ⟨t, h⟩ := exec_answers i s
  cases hi : isSequencer i with
  | false => exact ⟨t, h, exec_pure_out hi h⟩
  | true => exact ⟨t, h, exec_sequencer_out hi h⟩

/-- Settles O60: what an operation leaves on the result ports is a value or a fault, so it is not nothing. -/
theorem everyOperationReturns : Obligations.EveryOperationReturns := by
  intro i s
  obtain ⟨t, h, hv | ⟨k, hk⟩⟩ := exec_returns i s
  · exact ⟨t, h, hv.1⟩
  · exact ⟨t, h, hk ▸ nofun⟩

end Sys2Proof.Machine
end

section
/-! PROOFS. The state and its ports: what is decoded and what is returned fits the ports (spec/10_state.md R32), what
operations read and leave unchanged (R20 to R31), and what reset gives (R33). -/

namespace Sys2Proof.Machine

/-! ### Input ports (R32) -/

/-- Settles O2: each operand of a decoded operation is read from a port of the width its check asks for. -/
theorem decodedIsWellFormed : Obligations.DecodedIsWellFormed := by
  intro p i h
  unfold decode at h
  split at h <;> cases h
  · exact ⟨p.a_t.isLt, p.a_u.isLt⟩                                                        -- PACK2
  · exact trivial                                                                         -- UNPK2
  · exact fits_toInt (by decide) p.a_v                                                    -- ENCKHZ
  · exact trivial                                                                         -- DEC5
  · exact trivial                                                                         -- BLDFRQ
  · exact trivial                                                                         -- BLDMOD
  · exact trivial                                                                         -- BLDFIX
  · exact p.a_slot.isLt                                                                   -- BLDSEL
  · exact ⟨⟨p.a_seg.isLt, p.a_slot.isLt⟩, fits_toInt (by decide) p.a_lo, fits_toInt (by decide) p.a_hi⟩ -- BLDEDG
  · exact trivial                                                                         -- DECFRQ
  · exact trivial                                                                         -- DECMOD
  · exact ⟨p.a_band.isLt, p.a_ent.isLt⟩                                                   -- TLOOKUP
  · exact p.a_band.isLt                                                                   -- TWHOLE
  · exact p.a_mode.isLt                                                                   -- TNAME
  · exact p.a_band.isLt                                                                   -- TSEG
  · exact p.a_mode.isLt                                                                   -- CLSMOD
  · exact p.a_f10.isLt                                                                    -- CLSBND
  · exact ⟨p.a_band.isLt, p.a_ent.isLt⟩                                                   -- EDGDEF
  · exact ⟨p.a_f10.isLt, fits_toInt (by decide) p.a_ofs, fits_toInt (by decide) p.a_wid⟩  -- EDGOFS
  · exact trivial                                                                         -- QUERY
  · exact trivial                                                                         -- APPLYD
  · exact ⟨fits_toInt (by decide) p.a_ofs, fits_toInt (by decide) p.a_wid⟩                -- APPLYO

/-! ### What operations read and write (R20 to R31) -/

/-- What an operation did to the fault log: it gained the fault returned, or nothing was raised (R202, R178). -/
def LogsFault (s t : State) : Prop :=
  (∃ k, t.out = .fault k ∧ t.faultLog = s.faultLog ++ [k]) ∨ ((∀ k, t.out ≠ .fault k) ∧ t.faultLog = s.faultLog)

/-- A sequencer operation makes some calls and writes SEQ, ERR, SNAP, the result ports and the fault log besides, and
nothing else; SNAP is kept, or is a fresh snapshot (R23, R25, R178). -/
theorem exec_sequencer_frame {i : Instr} {s t : State} (hi : isSequencer i = true) (h : exec i s = .next t) :
    ∃ cs : List Call,
      t = { madeCalls s cs with
              seq := t.seq, snap := t.snap, err := t.err, out := t.out, faultLog := t.faultLog } ∧
      (t.snap = s.snap ∨ t.snap.valid = true) ∧ LogsFault s t := by
  rcases exec_sequencer_shape hi h with ⟨k, cs, -, -, -, rfl⟩ | ⟨r1, r2, f, m, d, c, b, -, ⟨-, rfl⟩ |
    ⟨lower, upper, -, -, ⟨rfl, -⟩ | ⟨F2, F3, cs, -, -, -, rfl | ⟨-, rfl⟩⟩⟩⟩
  · exact ⟨cs, rfl, .inl rfl, .inl ⟨k, rfl, rfl⟩⟩                                 -- a query step raises
  · exact ⟨queryCalls r1 r2, rfl, .inr rfl, .inr ⟨nofun, rfl⟩⟩                    -- QUERY returns
  · exact ⟨queryCalls r1 r2, rfl, .inr rfl, .inl ⟨.valueOutOfRange, rfl, rfl⟩⟩    -- T1 raises
  · exact ⟨_, rfl, .inr rfl, .inl ⟨.transportUnavailable, rfl, rfl⟩⟩              -- T2, T3 or T4 raises
  · exact ⟨_, rfl, .inr rfl, .inr ⟨nofun, rfl⟩⟩                                   -- an apply returns

/-- Settles O51: the frame of a sequencer operation, its calls counted. -/
theorem sequencerFrame : Obligations.SequencerFrame := by
  intro i s t hi h
  obtain ⟨cs, ht, hsnap, hlog⟩ := exec_sequencer_frame hi h
  have hcalls : t.calls = s.calls ++ cs := by rw [ht]; rfl
  have hserved : t.served = s.served + cs.length := by rw [ht]; rfl
  have hanswers : t.answers = s.answers.drop cs.length := by rw [ht]; rfl
  have hlen : t.calls.length - s.calls.length = cs.length := by simp [hcalls]
  refine ⟨by rw [ht]; rfl, by rw [ht]; rfl, by rw [ht]; rfl, ⟨cs, hcalls.symm⟩, ?_, ?_, hsnap, hlog⟩
  · rw [hlen, hserved, Nat.add_sub_cancel_left]
  · rw [hlen, hanswers]

/-- Settles O52: the value or fault such an operation ends with is computed from TBL and CFG. -/
theorem pureResultsDependOnRomAndConfig : Obligations.PureResultsDependOnRomAndConfig := by
  intro i s1 s2 t1 t2 hi htbl hcfg h1 h2
  obtain ⟨r, hr, -⟩ := exec_pure i hi
  rw [hr] at h1 h2
  cases h1
  cases h2
  rw [finish_out, finish_out, htbl, hcfg]

/-! ### Result ports (R32) -/

/-- An operation that ends in a fault, or in a value that fits, leaves a result that fits. -/
theorem finish_map_fits {α : Type} {e : Except FaultKind α} {f : α → Result} (s : State)
    (h : ∀ a, e = .ok a → (f a).FitsPorts) : (s.finish (e.map f)).out.FitsPorts := by
  cases e with
  | ok a => exact h a rfl
  | error k => trivial

/-- An answer of TLOOKUP is an entry of the ROM (R120). -/
theorem tlookup_eq_ok {t : Table} {band ent : Nat} {e : Edge} (h : tlookup t band ent = .ok e) :
    ∃ (_ : band < 12) (_ : ent < 4), e = t.edge[band][ent] := by
  unfold tlookup at h
  split at h
  · split at h
    · cases h; exact ⟨_, _, rfl⟩
    · cases h
  · cases h

/-- So is an answer of EDGDEF (R140). -/
theorem tlookup_of_edgdef_ok {t : Table} {band cls : Nat} {e : Edge} (h : edgdef t band cls = .ok e) :
    tlookup t band cls = .ok e := by
  unfold edgdef at h
  split at h
  · cases h
  · exact h

/-- Every entry of a well-formed ROM fits `r_lo` and `r_hi` (R29 WF3). -/
theorem edgeResult_fits_of_tlookup {t : Table} (ht : t.WF3) {band ent : Nat} {e : Edge}
    (h : tlookup t band ent = .ok e) : (edgeResult e).FitsPorts := by
  obtain ⟨hb, he, rfl⟩ := tlookup_eq_ok h
  have hle : t.edge[band][ent].lo ≤ 99999 ∧ t.edge[band][ent].hi ≤ 99999 := ht ⟨band, hb⟩ ⟨ent, he⟩
  simp only [edgeResult, Result.FitsPorts, FitsSigned]
  omega

/-- Every name of a well-formed ROM fits `r_name` (R29 WF5). -/
theorem tname_length_le {t : Table} (ht : t.WF5) {mode : Nat} {d : Bool} {n : List Byte} (h : tname t mode d = .ok n) :
    n.length ≤ 8 := by
  unfold tname at h
  split at h
  · rename_i hm
    cases h
    cases d
    · exact (ht ⟨mode, hm⟩ 0).1
    · exact (ht ⟨mode, hm⟩ 1).1
  · cases h

/-- Every segment number of a well-formed ROM has two digits (R29 WF4). -/
theorem tseg_le {t : Table} (ht : t.WF4) {band n : Nat} (h : tseg t band = .ok n) : n ≤ 99 := by
  unfold tseg at h
  split at h
  · rename_i hb; cases h; exact ht ⟨band, hb⟩
  · cases h

/-- A rounded frequency is at most one unit above the truncated one (R141). -/
theorem roundKhz_le (tie : RoundTie) (f10 : Nat) : roundKhz tie f10 ≤ f10 / 100 + 1 := by
  unfold roundKhz
  dsimp only
  split
  · omega
  split
  · omega
  cases tie with
  | halfUp => exact le_rfl
  | halfEven => dsimp only; split <;> omega

/-- The edges computed from operands that fit their ports fit theirs: nothing wraps (R141, R8). -/
theorem edgofs_fits {f10 : Nat} {ofs wid : Int} (c : Cfg) (hf : f10 < 2 ^ 30) (ho : FitsSigned 32 ofs)
    (hw : FitsSigned 32 wid) : (Result.edges (edgofs c f10 ofs wid).1 (edgofs c f10 ofs wid).2).FitsPorts := by
  have hk := roundKhz_le c.roundTie f10
  simp only [edgofs, Result.FitsPorts, FitsSigned] at *
  omega

/-- SCOPE_SEL is at most one byte (R5). -/
theorem scopeSel_length_le {c : Cfg} (hc : c.WellFormed) : c.scopeSel.length ≤ 1 := by
  obtain ⟨h | h | h, -⟩ := hc <;> simp [h]

@[simp] theorem envelope_length (cmd : Byte) (rest : List Byte) : (envelope cmd rest).length = rest.length + 6 := by
  simp [envelope]

theorem bldfix_length (c : Cfg) : (bldfix c).length = c.scopeSel.length + 8 := by
  simp [bldfix]

theorem bldsel_length {c : Cfg} {slot : Nat} {F : List Byte} (h : bldsel c slot = .ok F) :
    F.length = c.scopeSel.length + 8 := by
  obtain ⟨-, rfl⟩ := bldsel_eq_ok.mp h
  simp

theorem bldedg_length {c : Cfg} {seg slot : Nat} {lower upper : Int} {F : List Byte}
    (h : bldedg c seg slot lower upper = .ok F) : F.length = 19 := by
  obtain ⟨-, -, -, -, rfl⟩ := bldedg_eq_ok.mp h
  simp [Field5.bytes]

/-- What an operation outside the sequencer returns fits its ports (R32). -/
theorem exec_pure_fits {i : Instr} {s t : State} (hi : isSequencer i = false) (hw : i.WellFormed)
    (ht : s.tbl.WellFormed) (hc : s.cfg.WellFormed) (h : exec i s = .next t) : t.out.FitsPorts := by
  obtain ⟨-, -, wf3, wf4, wf5⟩ := ht
  have hscope : s.cfg.scopeSel.length + 8 ≤ 19 := by have := scopeSel_length_le hc; omega
  cases i <;> cases h
  case pack2 | enckhz | clsmod => exact finish_map_fits s fun _ _ => trivial
  case unpk2 b => exact ⟨Nat.lt_succ_of_le (hi_le b), Nat.lt_succ_of_le (lo_le b)⟩
  case dec5 => exact finish_map_fits s fun _ h => (dec5_le h).trans_lt (by decide)
  case bldfrq | bldmod => exact (by decide : (6 : Nat) ≤ 19)
  case bldfix => exact (bldfix_length s.cfg).trans_le hscope
  case bldsel => exact finish_map_fits s fun _ h => (bldsel_length h).trans_le hscope
  case bldedg => exact finish_map_fits s fun _ h => (bldedg_length h).le
  case decfrq => exact finish_map_fits s fun _ h => (decfrq_le h).trans_lt (by decide)
  case decmod => exact finish_map_fits s fun _ h => (decmod_le h).trans_lt (by decide)
  case tlookup | twhole => exact finish_map_fits s fun _ => edgeResult_fits_of_tlookup wf3
  case tname => exact finish_map_fits s fun _ => tname_length_le wf5
  case tseg => exact finish_map_fits s fun _ h => (tseg_le wf4 h).trans_lt (by decide)
  case clsbnd => exact finish_map_fits s fun _ h => (clsbnd_eq_ok.mp h).1.trans (by decide)
  case edgdef => exact finish_map_fits s fun _ h => edgeResult_fits_of_tlookup wf3 (tlookup_of_edgdef_ok h)
  case edgofs =>
    obtain ⟨hf, ho, hwid⟩ := hw
    exact edgofs_fits s.cfg hf ho hwid
  case query | applyd | applyo => cases hi

/-- The edges of an apply on a band of the ROM fit `r_lo` and `r_hi` (R155, R156). -/
theorem applyEdges_fit {i : Instr} {s : State} {f : Nat} {c : ModeClass} {b : Nat} {lower upper : Int}
    (hw : i.WellFormed) (ht : s.tbl.WF3) (hf : f ≤ 999999999) (hb : b < 12)
    (h : applyEdges i s f c b = some (lower, upper)) : (Result.edges lower upper).FitsPorts := by
  cases i
  case applyd =>
    have he := edgdef_eq s.tbl hb c.code_lt
    simp only [applyEdges, he, Except.toOption, Option.map_some, Option.some.injEq, Prod.mk.injEq] at h
    obtain ⟨rfl, rfl⟩ := h
    exact edgeResult_fits_of_tlookup ht (tlookup_of_edgdef_ok he)
  case applyo =>
    cases h
    exact edgofs_fits s.cfg (hf.trans_lt (by decide)) hw.1 hw.2
  all_goals cases h

/-- What a sequencer operation returns fits its ports: a fault, a snapshot, or the edges of an apply (R32). -/
theorem exec_sequencer_fits {i : Instr} {s t : State} (hi : isSequencer i = true) (hw : i.WellFormed)
    (ht : s.tbl.WF3) (h : exec i s = .next t) : t.out.FitsPorts := by
  rcases exec_sequencer_cases hi h with ⟨v, k, -, rfl⟩ | ⟨r1, r2, f, m, d, c, b, hq, ⟨-, rfl⟩ |
    ⟨lower, upper, -, he, ⟨v, k, -, rfl⟩ | ⟨v, -, rfl⟩⟩⟩
  · trivial                                             -- a query step raises
  · trivial                                             -- QUERY presents the fresh snapshot
  · trivial                                             -- the tail of an apply raises
  · exact applyEdges_fit hw ht hq.freq_le hq.band_lt he -- an apply presents its edges

/-- Settles O59: no value an operation returns is wider than its port. -/
theorem resultsFitPorts : Obligations.ResultsFitPorts := by
  intro i s t hw ht hc h
  cases hi : isSequencer i with
  | false => exact exec_pure_fits hi hw ht hc h
  | true =>
    obtain ⟨-, -, wf3, -⟩ := ht
    exact exec_sequencer_fits hi hw wf3 h

/-! ### Unnamed modes (R30) -/

/-- TNAME returns the name its accessor reads (R122). -/
theorem exec_tname_of_ok {s : State} {mode : Nat} {d : Bool} {n : List Byte} (h : tname s.tbl mode d = .ok n) :
    exec (.tname mode d) s = .next (completedWith s (.name n)) := by
  change Host.Outcome.next (s.finish ((tname s.tbl mode d).map .name)) = _
  rw [h]
  rfl

/-- On an image that meets R30 for codes 6 and 9, TNAME reads the two digits and `?`, whatever the flag. -/
theorem tname_of_unnamedNames {t : Table} (h : t.UnnamedNames) (d : Bool) :
    tname t 6 d = .ok [0x30, 0x36, 0x3F] ∧ tname t 9 d = .ok [0x30, 0x39, 0x3F] := by
  cases d
  · exact ⟨congrArg Except.ok (h 0).1, congrArg Except.ok (h 0).2⟩
  · exact ⟨congrArg Except.ok (h 1).1, congrArg Except.ok (h 1).2⟩

/-- Settles O32: the configured image carries the proof that codes 6 and 9 are named so. -/
theorem unnamedModesOfConfiguredRom : Obligations.UnnamedModesOfConfiguredRom := by
  intro s d hrom
  obtain ⟨h6, h9⟩ := tname_of_unnamedNames Config.rom.unnamed d
  rw [← hrom] at h6 h9
  exact ⟨exec_tname_of_ok h6, exec_tname_of_ok h9⟩

/-! ### Reset (R33) -/

/-- A step on the move that applies reset applies it, the move taken (R33, R193). -/
theorem step_reset {s : State} {rest : List HostMove} (hp : s.pending = .reset :: rest) :
    step s = .next (State.applyReset { s with pending := rest }) := by
  simp only [step, hp]

/-- Settles O13: the equation of `step` for the reset move, field by field. -/
theorem resetMoveRestoresRegisters : Obligations.ResetMoveRestoresRegisters :=
  fun _ _ hp => ⟨_, step_reset hp, rfl, rfl, rfl, rfl, rfl, rfl⟩

/-- Settles O55: after reset SEQ is Idle with no fault and no snapshot, and the record of calls is empty. -/
theorem resetMeetsInvariants : Obligations.ResetMeetsInvariants := by
  have hregs : State.reset.RegsAgree := ⟨rfl, rfl⟩
  have hsnap : State.reset.snap.valid = true → State.reset.SnapLegal := nofun
  have hcalls : State.reset.CallsOk := nofun
  exact ⟨⟨hregs, hsnap⟩, hcalls⟩

end Sys2Proof.Machine
end

section
/-! PROOFS. The encoding: decoding gives an encoded operation back (spec/30_encoding.md R77; spec/10_state.md R32), the
reserved codes are the ones rejected, and what presenting one does (R78). -/

namespace Sys2Proof.Machine

/-! ### Decoding what is encoded (R77) -/

/-- A natural number that fits a port of width `w` is read back from it (R32). -/
theorem toNat_ofNat_of_lt {w n : Nat} (h : n < 2 ^ w) : (BitVec.ofNat w n).toNat = n :=
  (BitVec.toNat_ofNat n w).trans (Nat.mod_eq_of_lt h)

/-- Settles O1: the code selects the operation, and each operand that fits its port is read back from it. -/
theorem decodeOfEncode : Obligations.DecodeOfEncode := by
  intro i hw
  cases i <;> apply congrArg Except.ok
  case unpk2 | dec5 | bldfrq | bldmod | bldfix | decfrq | decmod | query | applyd => rfl
  case pack2 | tlookup | edgdef => exact congrArg₂ _ (toNat_ofNat_of_lt hw.1) (toNat_ofNat_of_lt hw.2)
  case bldsel | twhole | tseg | clsbnd => exact congrArg _ (toNat_ofNat_of_lt hw)
  case tname | clsmod => exact congrArg₂ _ (toNat_ofNat_of_lt hw) (flagOf_flagBit _)
  case enckhz => exact congrArg _ (toInt_ofInt_of_fits (by decide) hw)
  case applyo =>
    exact congrArg₂ _ (toInt_ofInt_of_fits (by decide) hw.1) (toInt_ofInt_of_fits (by decide) hw.2)
  case edgofs =>
    obtain ⟨hf, ho, hwid⟩ := hw
    simp only [encode, toNat_ofNat_of_lt hf, toInt_ofInt_of_fits (by decide) ho, toInt_ofInt_of_fits (by decide) hwid]
  case bldedg =>
    obtain ⟨⟨hseg, hslot⟩, hlo, hhi⟩ := hw
    simp only [encode, toNat_ofNat_of_lt (w := 7) hseg, toNat_ofNat_of_lt (w := 4) hslot,
      toInt_ofInt_of_fits (by decide) hlo, toInt_ofInt_of_fits (by decide) hhi]

/-- Settles O4: the decoder evaluated on each of the seven presentations. -/
theorem decodedWordsOfEachFamily : Obligations.DecodedWordsOfEachFamily :=
  ⟨rfl, rfl, rfl, rfl, rfl, rfl, rfl⟩

/-! ### Reserved codes (R78) -/

/-- Whether a presentation decodes is a question about its code alone (R177). -/
theorem decode_isOk_opsel (p : Ports) : (decode p).isOk = (decode { opsel := p.opsel }).isOk := by
  unfold decode
  split <;> simp [*, Except.isOk, Except.toBool]

/-- A presentation decodes exactly if its code is not reserved: all 256 codes looked at (R77, R78). -/
theorem decode_isOk (p : Ports) : (decode p).isOk = !reservedOpsel p.opsel := by
  have codes : ∀ c : BitVec 8, (decode { opsel := c }).isOk = !reservedOpsel c := by decide
  exact (decode_isOk_opsel p).trans (codes p.opsel)

/-- `decode_isOk` for the operation decoded. -/
theorem exists_decode_eq_ok_iff (p : Ports) : (∃ i, decode p = .ok i) ↔ reservedOpsel p.opsel = false := by
  rw [← Bool.not_eq_true', ← decode_isOk]
  cases decode p <;> simp [Except.isOk, Except.toBool]

/-- A reserved code is rejected (R78). -/
theorem decode_eq_error_of_reserved {p : Ports} (h : reservedOpsel p.opsel = true) : ∃ r, decode p = .error r := by
  cases hd : decode p with
  | ok i => simp [(exists_decode_eq_ok_iff p).mp ⟨i, hd⟩] at h
  | error r => exact ⟨r, rfl⟩

/-- Settles O3: the eight ranges are those of `reservedOpsel`. -/
theorem decodeRejectsExactlyReserved : Obligations.DecodeRejectsExactlyReserved := by
  intro p
  rw [exists_decode_eq_ok_iff, ← Bool.not_eq_true, not_iff_not]
  simp [reservedOpsel, or_assoc]

/-- A step on a move that presents a rejected code rejects it, the move taken (R78). -/
theorem step_issue_of_reject {s : State} {p : Ports} {rest : List HostMove} {r : Rejected}
    (hp : s.pending = .issue p :: rest) (hd : decode p = .error r) :
    step s = .next (rejectOpsel { s with pending := rest }) := by
  simp only [step, hp, hd]

/-- Settles O6: a code outside R77's 22 is reserved, so the decoder rejects it, and the step then takes the fault. -/
theorem reservedOpselRaisesIllegalOperation : Obligations.ReservedOpselRaisesIllegalOperation := by
  intro s p rest hp hc
  have hres : reservedOpsel p.opsel = true := by
    generalize p.opsel = c at hc
    revert c
    decide
  obtain ⟨r, hd⟩ := decode_eq_error_of_reserved hres
  exact ⟨_, step_issue_of_reject hp hd, rfl, rfl⟩

end Sys2Proof.Machine
end

section
/-! PROOFS. The BCD unit: packing and unpacking a pair of digits, the kHz field and its inverse (spec/40_bcd.md R90 to
R94), and the field read back from the end of a response (spec/30_encoding.md R83). -/

namespace Sys2Proof.Machine

/-! ### Operations that end by their computation (R11, R178) -/

section
variable {α : Type} {e : Except FaultKind α} {f : α → Result}

/-- An operation whose computation answers `a` completes with `a` on the result ports (R11). -/
theorem finish_map_of_ok (s : State) {a : α} (h : e = .ok a) : s.finish (e.map f) = completedWith s (f a) := by
  rw [h]
  rfl

/-- An operation whose computation raises `k` ends in fault `k` (R178). -/
theorem endsInFault_finish_map (s : State) {k : FaultKind} (h : e = .error k) :
    EndsInFault s k (.next (s.finish (e.map f))) := by
  rw [h]
  exact ⟨_, rfl, rfl, rfl⟩

end

theorem exec_pack2_of_ok {t u : Nat} {b : Byte} (s : State) (h : pack2 t u = .ok b) :
    exec (.pack2 t u) s = .next (completedWith s (.byte b)) :=
  congrArg Host.Outcome.next (finish_map_of_ok s h)

/-- UNPK2 answers on every byte (R91). -/
theorem exec_unpk2 (b : Byte) (s : State) :
    exec (.unpk2 b) s = .next (completedWith s (.digits (hi b) (lo b) (isbcd b))) := rfl

theorem exec_enckhz_of_ok {v : Int} {p : Field5} (s : State) (h : enckhz v = .ok p) :
    exec (.enckhz v) s = .next (completedWith s (.payload p)) :=
  congrArg Host.Outcome.next (finish_map_of_ok s h)

theorem exec_dec5_of_ok {p : Field5} {f : Nat} (s : State) (h : dec5 p = .ok f) :
    exec (.dec5 p) s = .next (completedWith s (.freq f)) :=
  congrArg Host.Outcome.next (finish_map_of_ok s h)

theorem exec_decfrq_of_ok {resp : List Byte} {f : Nat} (s : State) (h : decfrq s.cfg resp = .ok f) :
    exec (.decfrq resp) s = .next (completedWith s (.freq f)) :=
  congrArg Host.Outcome.next (finish_map_of_ok s h)

/-! ### PACK2 and UNPK2 (R90, R91) -/

/-- PACK2 packs any two digits (R90). -/
theorem pack2_of_le {t u : Nat} (ht : t ≤ 9) (hu : u ≤ 9) : pack2 t u = .ok (packDigits t u) :=
  pack2_eq_ok.mpr ⟨ht, hu, rfl⟩

/-- PACK2 raises ValueOutOfRange exactly if an operand is no digit (R90, D37). -/
theorem pack2_eq_error {t u : Nat} {k : FaultKind} :
    pack2 t u = .error k ↔ (9 < t ∨ 9 < u) ∧ k = .valueOutOfRange := by
  unfold pack2
  split
  · rename_i h
    exact ⟨fun hk => ⟨h, by cases hk; rfl⟩, fun ⟨_, hk⟩ => by rw [hk]⟩
  · rename_i h
    exact ⟨fun hk => (by cases hk), fun hk => absurd hk.1 h⟩

/-- Settles O14: PACK2 answers on digits and raises on anything else. -/
theorem pack2PacksDigitsOrRaises : Obligations.Pack2PacksDigitsOrRaises := by
  refine ⟨fun p h => by cases p; cases h; rfl, fun s t u => ⟨fun ht hu => ?_, fun h => ?_⟩⟩
  · exact exec_pack2_of_ok s (pack2_of_le ht hu)
  · exact endsInFault_finish_map s (pack2_eq_error.mpr ⟨h, rfl⟩)

/-- Settles O15: `hi`, `lo` and `isbcd` are the quotient, the remainder and the test on them. -/
theorem unpk2SplitsEveryByte : Obligations.Unpk2SplitsEveryByte :=
  ⟨fun p h => by cases p; cases h; rfl, fun s b => exec_unpk2 b s⟩

/-- Settles O16: the nibbles of a packed pair of digits are the digits. -/
theorem unpk2OfPack2 : Obligations.Unpk2OfPack2 := by
  intro s t u ht hu
  refine ⟨packDigits t u, exec_pack2_of_ok s (pack2_of_le ht hu), ?_⟩
  rw [exec_unpk2, hi_packDigits ht hu, lo_packDigits hu, isbcd_packDigits ht hu]

/-- Different pairs of digits are packed differently: unpacking tells them apart (R94). -/
theorem packDigits_inj {t u t' u' : Nat} (ht : t ≤ 9) (hu : u ≤ 9) (ht' : t' ≤ 9) (hu' : u' ≤ 9)
    (h : packDigits t u = packDigits t' u') : t = t' ∧ u = u' := by
  have hhi := congrArg hi h
  have hlo := congrArg lo h
  rw [hi_packDigits ht hu, hi_packDigits ht' hu'] at hhi
  rw [lo_packDigits hu, lo_packDigits hu'] at hlo
  exact ⟨hhi, hlo⟩

/-- Two bytes with the same nibbles are one byte (R94). -/
theorem eq_of_nibbles_eq {a b : Byte} (hhi : hi a = hi b) (hlo : lo a = lo b) : a = b := by
  apply BitVec.eq_of_toNat_eq
  rw [toNat_eq_nibbles a, toNat_eq_nibbles b, hhi, hlo]

/-- Every pair of nibbles, decimal or not, is that of a byte (R94). -/
theorem exists_byte_of_nibbles {t u : Nat} (ht : t < 16) (hu : u < 16) : ∃ b : Byte, hi b = t ∧ lo b = u := by
  refine ⟨BitVec.ofNat 8 (t * 16 + u), ?_⟩
  simp only [hi, lo, BitVec.toNat_ofNat]
  omega

/-! ### ENCKHZ and DEC5 (R92, R93) -/

/-- ENCKHZ of a natural number in range (R92). -/
theorem enckhz_of_le {n : Nat} (hn : n ≤ 99999) : enckhz n = .ok (khzField n) :=
  enckhz_eq_ok.mpr ⟨by omega, by omega, rfl⟩

/-- Settles O17: ENCKHZ answers on 0 to 99999 with the digits placed as R92 says, and raises on anything else. -/
theorem enckhzEncodesOrRaises : Obligations.EnckhzEncodesOrRaises := by
  refine ⟨fun p h => by cases p; cases h; rfl, fun s v => ⟨?_, fun h => ?_⟩⟩
  · rintro n rfl hn
    rw [exec_enckhz_of_ok s (enckhz_of_le hn)]
    simp [khzField, packDigits, digit]
  · exact endsInFault_finish_map s (enckhz_eq_error.mpr ⟨h, rfl⟩)

/-- A field is BCD exactly if both nibbles of each of its bytes are digits (R91, R93). -/
theorem all_isbcd_iff (p : Field5) :
    p.bytes.all isbcd = true ↔ ∀ b ∈ p.bytes, b.toNat / 16 ≤ 9 ∧ b.toNat % 16 ≤ 9 := by
  simp only [List.all_eq_true, isbcd_iff, hi, lo]

/-- A field is not BCD exactly if a nibble of one of its bytes is no digit (R91, R93). -/
theorem all_isbcd_eq_false_iff (p : Field5) :
    p.bytes.all isbcd = false ↔ ∃ b ∈ p.bytes, 9 < b.toNat / 16 ∨ 9 < b.toNat % 16 := by
  rw [← Bool.not_eq_true, all_isbcd_iff]
  simp only [not_forall, not_and_or, not_le, exists_prop]

/-- DEC5 of a BCD field, the nine weights written out (R93). -/
theorem dec5_of_digits {p : Field5} (h : ∀ b ∈ p.bytes, b.toNat / 16 ≤ 9 ∧ b.toNat % 16 ≤ 9) :
    dec5 p = .ok
      (p.p4.toNat / 16 * 100000000 + p.p4.toNat % 16 * 10000000 + p.p3.toNat / 16 * 1000000 +
       p.p3.toNat % 16 * 100000 + p.p2.toNat / 16 * 10000 + p.p2.toNat % 16 * 1000 + p.p1.toNat / 16 * 100 +
       p.p1.toNat % 16 * 10 + p.p0.toNat / 16) :=
  dec5_eq_ok.mpr ⟨(all_isbcd_iff p).mpr h, by simp [hi, lo]⟩

/-- DEC5 of a field with a nibble that is no digit, the dropped one included (R93, D8). -/
theorem dec5_of_not_digits {p : Field5} (h : ∃ b ∈ p.bytes, 9 < b.toNat / 16 ∨ 9 < b.toNat % 16) :
    dec5 p = .error .malformedResponse :=
  dec5_eq_error.mpr ⟨(all_isbcd_eq_false_iff p).mpr h, rfl⟩

/-- Settles O18: DEC5 answers exactly on BCD fields. -/
theorem dec5WeighsNibblesOrRaises : Obligations.Dec5WeighsNibblesOrRaises := by
  refine ⟨fun p h => by cases p; cases h; rfl, fun s p => ⟨fun h => ?_, fun h => ?_⟩⟩
  · exact exec_dec5_of_ok s (dec5_of_digits h)
  · exact endsInFault_finish_map s (dec5_of_not_digits h)

/-! ### The round trip (R83, R93) -/

/-- The field of a kHz value is BCD (R92). -/
theorem khzField_isbcd (n : Nat) : (khzField n).bytes.all isbcd = true := by
  have hz : isbcd 0#8 = true := by decide
  simp [khzField, Field5.bytes, isbcd_packDigits, digit_le, hz]

/-- A number of at most five digits is the sum of its weighted digits (R8). -/
theorem sum_digits {n : Nat} (hn : n ≤ 99999) :
    digit n 4 * 10 ^ 4 + digit n 3 * 10 ^ 3 + digit n 2 * 10 ^ 2 + digit n 1 * 10 + digit n 0 = n := by
  simp only [digit]
  omega

/-- DEC5 undoes ENCKHZ: the digits of `n` stand at the weights 10^6 to 10^2, and the other nibbles are 0 (R83, R93). -/
theorem dec5_khzField {n : Nat} (hn : n ≤ 99999) : dec5 (khzField n) = .ok (100 * n) := by
  refine dec5_eq_ok.mpr ⟨khzField_isbcd n, ?_⟩
  have hsum := sum_digits hn
  have hhi : hi 0x00 = 0 := rfl
  have hlo : lo 0x00 = 0 := rfl
  simp only [khzField, hhi, hlo, hi_packDigits (digit_le n _) (digit_le n _), lo_packDigits (digit_le n _),
    hi_packDigits (digit_le n 0) (Nat.zero_le 9), lo_packDigits (Nat.zero_le 9)]
  omega

/-- If a response ends with the field `p` and one more byte, the five bytes before that byte are `p` (R67, R110). -/
theorem fieldBeforeEom_append (X : List Byte) (p : Field5) (b : Byte) :
    fieldBeforeEom (X ++ (p.bytes ++ [b])) = .ok p := by
  have hlen : (p.bytes ++ [b]).length = 6 := rfl
  have hbyte : ∀ n ≤ 6, byteFromEnd (X ++ (p.bytes ++ [b])) n = byteFromEnd (p.bytes ++ [b]) n :=
    fun n hn => byteFromEnd_append (hn.trans_eq hlen.symm)
  unfold fieldBeforeEom
  rw [hbyte 6 (by decide), hbyte 5 (by decide), hbyte 4 (by decide), hbyte 3 (by decide), hbyte 2 (by decide)]
  rfl

/-- On a response long enough that ends with the field `p` and the terminator, DECFRQ is DEC5 of `p` (R110). -/
theorem decfrq_append {c : Cfg} {X : List Byte} (p : Field5) (h : c.freqMinLen ≤ X.length + 6) :
    decfrq c (X ++ (p.bytes ++ [eomByte])) = dec5 p := by
  have hlen : ¬ (X ++ (p.bytes ++ [eomByte])).length < c.freqMinLen := by
    simp only [Field5.bytes, List.length_append, List.length_cons, List.length_nil]
    omega
  have heom : endsWithEom (X ++ (p.bytes ++ [eomByte])) = true := by
    simp [endsWithEom]
  rw [decfrq, if_neg hlen, heom, fieldBeforeEom_append]
  rfl

/-- Settles O19: ENCKHZ returns the field of `v`, and both decoders give `100 * v` back from it. -/
theorem khzRoundTrip : Obligations.KhzRoundTrip := by
  intro s v hv
  refine ⟨khzField v, exec_enckhz_of_ok s (enckhz_of_le hv), exec_dec5_of_ok s (dec5_khzField hv), fun X hX => ?_⟩
  rw [List.append_assoc]
  exact exec_decfrq_of_ok s ((decfrq_append (khzField v) hX).trans (dec5_khzField hv))

/-! ### Injectivity (R94) -/

/-- Different kHz values have different fields, because DEC5 gives the value back (R94). -/
theorem khzField_inj {m n : Nat} (hm : m ≤ 99999) (hn : n ≤ 99999) (h : khzField m = khzField n) : m = n := by
  have hdec := congrArg dec5 h
  rw [dec5_khzField hm, dec5_khzField hn, Except.ok.injEq] at hdec
  omega

/-- Settles O20: PACK2, UNPK2 and ENCKHZ each have an inverse, and DEC5 drops a digit. -/
theorem bcdUnitIsInjective : Obligations.BcdUnitIsInjective := by
  refine ⟨?pack2, ?enckhz, ?unpk2_injective, ?unpk2_surjective, ?dec5⟩
  case pack2 =>
    intro t u t' u' ht hu ht' hu' h
    rw [pack2_of_le ht hu, pack2_of_le ht' hu', Except.ok.injEq] at h
    exact packDigits_inj ht hu ht' hu' h
  case enckhz =>
    intro v w hv0 hv hw0 hw h
    lift v to Nat using hv0
    lift w to Nat using hw0
    have hv' : v ≤ 99999 := by omega
    have hw' : w ≤ 99999 := by omega
    rw [enckhz_of_le hv', enckhz_of_le hw', Except.ok.injEq] at h
    rw [khzField_inj hv' hw' h]
  case unpk2_injective =>
    intro s a b h
    rw [exec_unpk2, exec_unpk2] at h
    have hout : Result.digits _ _ _ = Result.digits _ _ _ := congrArg State.out (Host.Outcome.next.inj h)
    obtain ⟨hhi, hlo, -⟩ := Result.digits.inj hout
    exact eq_of_nibbles_eq hhi hlo
  case unpk2_surjective =>
    intro s t u ht hu
    obtain ⟨b, rfl, rfl⟩ := exists_byte_of_nibbles ht hu
    exact ⟨b, isbcd b, exec_unpk2 b s⟩
  case dec5 =>
    -- 00 and 01 in the first byte differ in the dropped 1 Hz digit
    exact ⟨⟨0x00, 0x00, 0x00, 0x00, 0x00⟩, ⟨0x01, 0x00, 0x00, 0x00, 0x00⟩, 0, by decide, rfl, rfl⟩

end Sys2Proof.Machine
end

section
/-! PROOFS. The frame encoder: what each BLD operation returns (spec/41_frame_build.md R100 to R104), the shape of every
frame it builds (R105), and that CIVB hands the transport no other frames (spec/46_sequencer.md R157, R158). -/

namespace Sys2Proof.Machine

/-! ### The frames and their faults (R100 to R104) -/

theorem bldfix_eq (c : Cfg) :
    bldfix c = [0xFE, 0xFE, 0x98, 0xE0, 0x27, 0x14] ++ c.scopeSel ++ [0x01, 0xFD] := by
  simp [bldfix, envelope, preByte, dstByte, srcByte, cmdScope, subFix, fixOn, eomByte]

theorem bldsel_of_le {c : Cfg} {slot : Nat} (h1 : 1 ≤ slot) (h2 : slot ≤ c.nSlots) :
    bldsel c slot = .ok ([0xFE, 0xFE, 0x98, 0xE0, 0x27, 0x16] ++ c.scopeSel ++ [BitVec.ofNat 8 slot, 0xFD]) := by
  refine bldsel_eq_ok.mpr ⟨⟨h1, h2⟩, ?_⟩
  simp [envelope, preByte, dstByte, srcByte, cmdScope, subSel, eomByte]

theorem bldedg_of_le {c : Cfg} {seg slot l u : Nat} (hseg : seg ≤ 99) (h1 : 1 ≤ slot) (h2 : slot ≤ c.nSlots)
    (hl : l ≤ 99999) (hu : u ≤ 99999) :
    bldedg c seg slot l u = .ok
      [0xFE, 0xFE, 0x98, 0xE0, 0x27, 0x1E, BitVec.ofNat 8 (seg / 10 * 16 + seg % 10), BitVec.ofNat 8 slot,
       0x00, BitVec.ofNat 8 (l % 10 * 16), BitVec.ofNat 8 (l / 100 % 10 * 16 + l / 10 % 10),
       BitVec.ofNat 8 (l / 10000 % 10 * 16 + l / 1000 % 10), 0x00,
       0x00, BitVec.ofNat 8 (u % 10 * 16), BitVec.ofNat 8 (u / 100 % 10 * 16 + u / 10 % 10),
       BitVec.ofNat 8 (u / 10000 % 10 * 16 + u / 1000 % 10), 0x00, 0xFD] := by
  refine bldedg_eq_ok.mpr ⟨hseg, ⟨h1, h2⟩, by omega, by omega, ?_⟩
  simp [envelope, preByte, dstByte, srcByte, cmdScope, subEdg, eomByte, bcdByte, khzField, Field5.bytes, packDigits,
    digit]

/-- BLDEDG raises ValueOutOfRange if the segment, the slot or an edge is out of range (R104). -/
theorem bldedg_of_out_of_range {c : Cfg} {seg slot : Nat} {lower upper : Int}
    (h : 99 < seg ∨ slot < 1 ∨ c.nSlots < slot ∨ lower < 0 ∨ 99999 < lower ∨ upper < 0 ∨ 99999 < upper) :
    bldedg c seg slot lower upper = .error .valueOutOfRange := by
  cases hb : bldedg c seg slot lower upper with
  | ok F =>
    obtain ⟨hseg, hslot, hlower, hupper, -⟩ := bldedg_eq_ok.mp hb
    omega
  | error k => rw [bldedg_error hb]

/-- Settles O21: the envelopes of the two request commands, written out. -/
theorem requestFrames : Obligations.RequestFrames :=
  ⟨fun p h => by cases p; cases h; rfl, fun p h => by cases p; cases h; rfl, fun _ => ⟨rfl, rfl⟩⟩

theorem exec_bldfix (s : State) : exec .bldfix s = .next (completedWith s (.frame (bldfix s.cfg))) := rfl

theorem exec_bldsel_of_ok {s : State} {slot : Nat} {F : List Byte} (h : bldsel s.cfg slot = .ok F) :
    exec (.bldsel slot) s = .next (completedWith s (.frame F)) :=
  congrArg Host.Outcome.next (finish_map_of_ok s h)

theorem exec_bldedg_of_ok {s : State} {seg slot : Nat} {lower upper : Int} {F : List Byte}
    (h : bldedg s.cfg seg slot lower upper = .ok F) :
    exec (.bldedg seg slot lower upper) s = .next (completedWith s (.frame F)) :=
  congrArg Host.Outcome.next (finish_map_of_ok s h)

/-- Settles O22: BLDFIX returns its frame in every state. -/
theorem fixedModeFrame : Obligations.FixedModeFrame :=
  ⟨fun p h => by cases p; cases h; rfl, fun s => by rw [exec_bldfix, bldfix_eq]⟩

/-- Settles O23: BLDSEL builds its frame for a slot in range and raises for any other. -/
theorem selectFrameOrRaises : Obligations.SelectFrameOrRaises := by
  refine ⟨fun p h => by cases p; cases h; rfl, fun s slot => ⟨fun h1 h2 => ?_, fun h => ?_⟩⟩
  · exact exec_bldsel_of_ok (bldsel_of_le h1 h2)
  · exact endsInFault_finish_map s (bldsel_eq_error.mpr ⟨by omega, rfl⟩)

/-- Settles O24: BLDEDG builds its frame for operands in range and raises if one is not. -/
theorem edgeWriteFrameOrRaises : Obligations.EdgeWriteFrameOrRaises := by
  refine ⟨fun p h => by cases p; cases h; rfl, fun s seg slot lower upper => ⟨?_, fun h => ?_⟩⟩
  · rintro l u rfl rfl hseg h1 h2 hl hu
    exact exec_bldedg_of_ok (bldedg_of_le hseg h1 h2 hl hu)
  · exact endsInFault_finish_map s (bldedg_of_out_of_range h)

/-! ### The shape of a built frame (R105) -/

/-- The frames the encoder can build under configuration `c` (R100 to R104). -/
inductive BuiltFrame (c : Cfg) : List Byte → Prop
  | frq : BuiltFrame c bldfrq
  | mod : BuiltFrame c bldmod
  | fix : BuiltFrame c (bldfix c)
  | sel {slot : Nat} {F : List Byte} (h : bldsel c slot = .ok F) : BuiltFrame c F
  | edg {seg slot : Nat} {lower upper : Int} {F : List Byte} (h : bldedg c seg slot lower upper = .ok F) :
    BuiltFrame c F

/-- Every built frame has the envelope and neither 0xFD nor 0xFE inside it (R105, R61). -/
theorem BuiltFrame.frameShape {c : Cfg} {F : List Byte} (hc : c.WellFormed) (hF : BuiltFrame c F) : FrameShape F := by
  cases hF with
  | frq => exact frameShape_bldfrq
  | mod => exact frameShape_bldmod
  | fix => exact frameShape_bldfix hc
  | sel h => exact frameShape_bldsel hc h
  | edg h => exact frameShape_bldedg hc h

/-- Every built frame has one of four lengths, the middle two by whether SCOPE_SEL is empty (R105). -/
theorem BuiltFrame.length_cases {c : Cfg} {F : List Byte} (hc : c.WellFormed) (hF : BuiltFrame c F) :
    F.length = 6 ∨ F.length = 8 ∨ F.length = 9 ∨ F.length = 19 := by
  have hscope := scopeSel_length_le hc
  cases hF with
  | frq => exact .inl rfl
  | mod => exact .inl rfl
  | fix => have := bldfix_length c; omega
  | sel h => have := bldsel_length h; omega
  | edg h => have := bldedg_length h; omega

/-- An operation that ends by its computation returns a frame only if the computation answers one. -/
theorem ok_of_finish_map_out_eq_frame {α : Type} {e : Except FaultKind α} {f : α → Result} {s : State} {F : List Byte}
    (h : (s.finish (e.map f)).out = .frame F) : ∃ a, e = .ok a ∧ f a = .frame F := by
  cases e with
  | ok a => exact ⟨a, rfl, h⟩
  | error k => cases h

/-- An operation outside the sequencer that returns a frame is one of the five BLD operations (R32). -/
theorem builtFrame_of_exec_pure {i : Instr} {s t : State} {F : List Byte} (hi : isSequencer i = false)
    (h : exec i s = .next t) (hF : t.out = .frame F) : BuiltFrame s.cfg F := by
  cases i <;> cases h
  case bldfrq => cases hF; exact .frq
  case bldmod => cases hF; exact .mod
  case bldfix => cases hF; exact .fix
  case bldsel =>
    obtain ⟨_, h, hF⟩ := ok_of_finish_map_out_eq_frame hF
    cases hF
    exact .sel h
  case bldedg =>
    obtain ⟨_, h, hF⟩ := ok_of_finish_map_out_eq_frame hF
    cases hF
    exact .edg h
  case unpk2 | edgofs => cases hF
  case query | applyd | applyo => cases hi
  all_goals  -- the other operations answer something else
    obtain ⟨_, -, hF⟩ := ok_of_finish_map_out_eq_frame hF
    cases hF

/-- A sequencer operation returns a fault, a snapshot or edges, and no frame (R154 to R157). -/
theorem exec_sequencer_out_ne_frame {i : Instr} {s t : State} (hi : isSequencer i = true) (h : exec i s = .next t)
    (F : List Byte) : t.out ≠ .frame F := by
  rcases exec_sequencer_cases hi h with
    ⟨v, k, -, rfl⟩ | ⟨_, _, _, _, _, _, _, -, ⟨-, rfl⟩ | ⟨lower, upper, -, -, ⟨v, k, -, rfl⟩ | ⟨v, -, rfl⟩⟩⟩
  · exact nofun     -- a query step raises
  · exact nofun     -- QUERY presents the fresh snapshot
  · exact nofun     -- the tail of an apply raises
  · exact nofun     -- an apply presents its edges

/-- Settles O25: a frame returned is a built one, whatever the operation. -/
theorem builtFramesHaveEnvelope : Obligations.BuiltFramesHaveEnvelope := by
  intro i s t F hc h hF
  cases hi : isSequencer i with
  | false =>
    have hbuilt := builtFrame_of_exec_pure hi h hF
    exact ⟨hbuilt.frameShape hc, hbuilt.length_cases hc⟩
  | true => exact absurd hF (exec_sequencer_out_ne_frame hi h F)

/-! ### The frames CIVB hands to the transport (R80, R105, R157, R158) -/

/-- A request frame handed over with SEQ = Querying is a call CIVB may make (R158). -/
theorem blockCallOk_of_request (c : Cfg) {k : Call} (hseq : k.seq = .querying) (hF : k.frame ∈ [bldfrq, bldmod]) :
    BlockCallOk c k := by
  have hreq : k.frame = bldfrq ∨ k.frame = bldmod := by simpa using hF
  have hshape : FrameShape k.frame := by
    rcases hreq with h | h <;> rw [h]
    · exact frameShape_bldfrq
    · exact frameShape_bldmod
  exact ⟨hshape, .inl ⟨hseq, hreq⟩⟩

/-- A setup frame handed over with SEQ = Applying is a call CIVB may make (R157). -/
theorem blockCallOk_of_setup {s : State} {b : Nat} {lower upper : Int} {F2 F3 : List Byte} {k : Call}
    (hc : s.cfg.WellFormed) (hb : SetupBuilds s b lower upper F2 F3) (hseq : k.seq = .applying)
    (hF : k.frame ∈ [bldfix s.cfg, F2, F3]) : BlockCallOk s.cfg k := by
  obtain ⟨hsel, seg, -, hedg⟩ := hb
  simp only [List.mem_cons, List.not_mem_nil, or_false] at hF
  rcases hF with h | rfl | rfl
  · exact ⟨h ▸ frameShape_bldfix hc, .inr ⟨hseq, .inl h⟩⟩
  · exact ⟨frameShape_bldsel hc hsel, .inr ⟨hseq, .inr (.inl hsel)⟩⟩
  · exact ⟨frameShape_bldedg hc hedg, .inr ⟨hseq, .inr (.inr ⟨seg, lower, upper, hedg⟩)⟩⟩

/-- The two calls of a query that goes through are calls CIVB may make (R154, R158). -/
theorem blockCallOk_of_mem_queryCalls (c : Cfg) {r1 r2 : List Byte} {k : Call} (hk : k ∈ queryCalls r1 r2) :
    BlockCallOk c k := by
  simp only [queryCalls, List.mem_cons, List.not_mem_nil, or_false] at hk
  rcases hk with rfl | rfl
  · exact blockCallOk_of_request c rfl (by simp [frqCall])
  · exact blockCallOk_of_request c rfl (by simp [modCall])

/-- If the list `Fs` begins with the frames of some calls, the frame of each is in `Fs`. -/
theorem frame_mem_of_map_isPrefix {cs : List Call} {Fs : List (List Byte)} (h : cs.map (·.frame) <+: Fs) {k : Call}
    (hk : k ∈ cs) : k.frame ∈ Fs :=
  h.subset (List.mem_map_of_mem hk)

/-- `t` is `s` with some calls made by CIVB, all of them calls it may make under the configuration of `s`, which `t`
keeps (R80, R158, R31). -/
def SendsOnlyOk (s t : State) : Prop :=
  t.cfg = s.cfg ∧ ∃ cs : List Call, t.calls = s.calls ++ cs ∧ ∀ k ∈ cs, BlockCallOk s.cfg k

theorem exec_pure_sendsOnlyOk {i : Instr} {s t : State} (hi : isSequencer i = false) (h : exec i s = .next t) :
    SendsOnlyOk s t := by
  rcases exec_pure_cases hi h with ⟨k, rfl⟩ | ⟨v, -, rfl⟩
  · exact ⟨rfl, [], by simp, nofun⟩
  · exact ⟨rfl, [], by simp, nofun⟩

theorem exec_sequencer_sendsOnlyOk {i : Instr} {s t : State} (hc : s.cfg.WellFormed) (hi : isSequencer i = true)
    (h : exec i s = .next t) : SendsOnlyOk s t := by
  rcases exec_sequencer_shape hi h with ⟨k, cs, -, hF, hcs, rfl⟩ | ⟨r1, r2, f, m, d, c, b, -, ⟨-, rfl⟩ |
    ⟨lower, upper, -, -, ⟨rfl, -⟩ | ⟨F2, F3, cs, hb, hF, hcs, ht⟩⟩⟩
  · have hpre : cs.map (·.frame) <+: [bldfrq, bldmod] := by rcases hF with h | h <;> simp [h]
    have hok : ∀ x ∈ cs, BlockCallOk s.cfg x := fun x hx =>
      blockCallOk_of_request _ (hcs x hx).2 (frame_mem_of_map_isPrefix hpre hx)
    exact ⟨rfl, cs, rfl, hok⟩                                         -- a query step raises
  · exact ⟨rfl, _, rfl, fun _ => blockCallOk_of_mem_queryCalls _⟩     -- QUERY returns
  · exact ⟨rfl, _, rfl, fun _ => blockCallOk_of_mem_queryCalls _⟩     -- T1 raises
  · have hok : ∀ x ∈ queryCalls r1 r2 ++ cs, BlockCallOk s.cfg x := by
      intro x hx
      rcases List.mem_append.mp hx with hx | hx
      · exact blockCallOk_of_mem_queryCalls _ hx
      · exact blockCallOk_of_setup hc hb (hcs x hx).2 (frame_mem_of_map_isPrefix hF hx)
    rcases ht with rfl | ⟨-, rfl⟩
    · exact ⟨rfl, _, rfl, hok⟩                                        -- T2, T3 or T4 raises
    · exact ⟨rfl, _, rfl, hok⟩                                        -- an apply returns

/-- Under a configuration that meets R5, every operation makes only calls CIVB may make (R157, R158). -/
theorem exec_sendsOnlyOk {i : Instr} {s t : State} (hc : s.cfg.WellFormed) (h : exec i s = .next t) :
    SendsOnlyOk s t := by
  cases hi : isSequencer i with
  | false => exact exec_pure_sendsOnlyOk hi h
  | true => exact exec_sequencer_sendsOnlyOk hc hi h

/-- The record stays well-shaped when it grows by calls of which CIVB's own are calls it may make. -/
theorem State.CallsOk.of_calls_eq_append {s t : State} {cs : List Call} (hs : s.CallsOk) (hcfg : t.cfg = s.cfg)
    (hcalls : t.calls = s.calls ++ cs) (hcs : ∀ k ∈ cs, k.caller = .block → BlockCallOk s.cfg k) : t.CallsOk := by
  intro k hk
  rw [hcalls, List.mem_append] at hk
  rw [hcfg]
  exact hk.elim (hs k) (hcs k)

/-- Settles O56: a step grows the record by an operation's own calls, by the host's one call, or not at all. -/
theorem stepKeepsCallsWellShaped : Obligations.StepKeepsCallsWellShaped := by
  intro s t hc hs h
  rcases step_cases h with rfl | ⟨mv, rest, -, ⟨p, i, -, -, he⟩ | rfl | ⟨-, rfl⟩ | rfl | ⟨F, rfl⟩⟩
  · exact hs                                            -- nothing pending
  · obtain ⟨hcfg, cs, hcalls, hok⟩ := exec_sendsOnlyOk (s := { s with pending := rest }) hc he
    exact hs.of_calls_eq_append hcfg hcalls fun k hk _ => hok k hk
  · exact hs                                            -- a reserved code
  · exact hs                                            -- reset
  · exact hs                                            -- a use of the snapshot
  · refine hs.of_calls_eq_append rfl rfl fun k hk hblock => ?_
    rw [List.mem_singleton.mp hk] at hblock             -- the caller is the host
    cases hblock

end Sys2Proof.Machine
end

section
/-! PROOFS. The frame decoder: what DECFRQ and DECMOD answer (spec/42_frame_decode.md R110, R111), and that only the end
of a response counts (R112; spec/30_encoding.md R67). -/

namespace Sys2Proof.Machine

/-! ### The end of a response (R67) -/

theorem endsWithEom_iff (resp : List Byte) : endsWithEom resp = true ↔ resp.getLast? = some 0xFD := by
  simp [endsWithEom, eomByte]

theorem endsWithEom_eq_false_iff (resp : List Byte) : endsWithEom resp = false ↔ resp.getLast? ≠ some 0xFD := by
  rw [← Bool.not_eq_true, endsWithEom_iff]

theorem endsWithEom_append (X : List Byte) {E : List Byte} (h : E ≠ []) :
    endsWithEom (X ++ E) = endsWithEom E := by
  rw [endsWithEom, List.getLast?_append_of_ne_nil X h, endsWithEom]

/-- A byte that `Y.length` bytes follow is the byte `Y.length + 1` from the end. -/
theorem byteFromEnd_append_cons (X Y : List Byte) (b : Byte) : byteFromEnd (X ++ b :: Y) (Y.length + 1) = .ok b := by
  have hlast : (b :: Y).reverse[Y.length]? = some b := by simp
  rw [byteFromEnd_append (E := b :: Y) (by simp), byteFromEnd, if_neg (Nat.succ_ne_zero _), Nat.add_sub_cancel, hlast]

theorem fieldBeforeEom_append_right (X : List Byte) {E : List Byte} (h : 6 ≤ E.length) :
    fieldBeforeEom (X ++ E) = fieldBeforeEom E := by
  have hbyte : ∀ n ≤ 6, byteFromEnd (X ++ E) n = byteFromEnd E n := fun n hn => byteFromEnd_append (hn.trans h)
  unfold fieldBeforeEom
  rw [hbyte 6 (by decide), hbyte 5 (by decide), hbyte 4 (by decide), hbyte 3 (by decide), hbyte 2 (by decide)]

/-! ### DECFRQ (R110) -/

/-- DECFRQ rejects a response that is too short or does not end in the terminator (R110, D6, D7). -/
theorem decfrq_of_rejected {c : Cfg} {resp : List Byte}
    (h : resp.length < c.freqMinLen ∨ resp.getLast? ≠ some 0xFD) : decfrq c resp = .error .malformedResponse := by
  unfold decfrq
  split
  · rfl
  next hlen =>
    rw [(endsWithEom_eq_false_iff resp).mpr (h.resolve_left hlen)]
    rfl

/-- DECFRQ ignores what stands before a tail of at least six bytes and FREQ_MIN_LEN (R112). -/
theorem decfrq_append_right {c : Cfg} (X : List Byte) {E : List Byte} (h6 : 6 ≤ E.length)
    (hmin : c.freqMinLen ≤ E.length) : decfrq c (X ++ E) = decfrq c E := by
  have hne : E ≠ [] := List.ne_nil_of_length_pos (by omega)
  have hX : ¬ (X ++ E).length < c.freqMinLen := by rw [List.length_append]; omega
  rw [decfrq, if_neg hX, endsWithEom_append X hne, fieldBeforeEom_append_right X h6, decfrq, if_neg hmin.not_gt]

/-- Settles O26: behind the checks of length and terminator DECFRQ is DEC5 of the five bytes before the terminator. -/
theorem decfrqDecodesOrRaises : Obligations.DecfrqDecodesOrRaises := by
  refine ⟨fun p h => by cases p; cases h; rfl, fun s resp => ⟨?accepted, fun h => ?short, fun h => ?unterminated⟩⟩
  case accepted =>
    rintro X p rfl hlen
    have hdec : decfrq s.cfg (X ++ [p.p0, p.p1, p.p2, p.p3, p.p4, 0xFD]) = dec5 p :=
      decfrq_append p (by simpa using hlen)
    refine ⟨fun h => ?_, fun h => ?_⟩
    · exact exec_decfrq_of_ok s (hdec.trans (dec5_of_digits h))
    · exact endsInFault_finish_map s (hdec.trans (dec5_of_not_digits h))
  case short => exact endsInFault_finish_map s (decfrq_of_rejected (.inl h))
  case unterminated => exact endsInFault_finish_map s (decfrq_of_rejected (.inr h))

/-! ### DECMOD (R111) -/

theorem exec_decmod_of_ok {resp : List Byte} {m : Nat} {d : Bool} (s : State) (h : decmod s.cfg resp = .ok (m, d)) :
    exec (.decmod resp) s = .next (completedWith s (.mode m d)) :=
  congrArg Host.Outcome.next (finish_map_of_ok s h)

/-- The digital flag is set exactly if the data byte, masked with 0x03, is not 0 (R76). -/
theorem dflagOf_eq_decide (d : Byte) : dflagOf d = decide (d &&& 0x03 ≠ 0) := by
  simp [dflagOf, bne, beq_eq_decide]

/-- A decimal mode byte of at most 13 gives its mode code, and the data byte the flag (R111). -/
theorem modeAndFlag_of_le {m : Byte} (d : Byte) (hhi : m.toNat / 16 ≤ 9) (hlo : m.toNat % 16 ≤ 9)
    (h13 : 10 * (m.toNat / 16) + m.toNat % 16 ≤ 13) :
    modeAndFlag m d = .ok (10 * (m.toNat / 16) + m.toNat % 16, decide (d &&& 0x03 ≠ 0)) := by
  have hbcd : isbcd m = true := (isbcd_iff m).mpr ⟨hhi, hlo⟩
  have hcode : ¬ bcdval m > 13 := not_lt.mpr h13
  rw [modeAndFlag, hbcd, if_neg (by decide), if_neg hcode, dflagOf_eq_decide]
  rfl

/-- A mode byte with a nibble that is no digit, or of a code above 13, raises MalformedResponse (R111, R79). -/
theorem modeAndFlag_of_not_code {m : Byte} (d : Byte)
    (h : 9 < m.toNat / 16 ∨ 9 < m.toNat % 16 ∨ 13 < 10 * (m.toNat / 16) + m.toNat % 16) :
    modeAndFlag m d = .error .malformedResponse := by
  unfold modeAndFlag
  cases hbcd : isbcd m with
  | false => rfl
  | true =>
    obtain ⟨hhi, hlo⟩ := (isbcd_iff m).mp hbcd
    have h13 : bcdval m > 13 := (h.resolve_left hhi.not_gt).resolve_left hlo.not_gt
    rw [if_neg (by decide), if_pos h13]

/-- DECMOD rejects a response that is too short or does not end in the terminator (R111, D7, D9). -/
theorem decmod_of_rejected {c : Cfg} {resp : List Byte}
    (h : resp.length < c.modeMinLen ∨ resp.getLast? ≠ some 0xFD) : decmod c resp = .error .malformedResponse := by
  unfold decmod
  split
  · rfl
  next hlen =>
    rw [(endsWithEom_eq_false_iff resp).mpr (h.resolve_left hlen)]
    rfl

/-- On a response long enough that ends with the mode byte `m` at MODE_OFS from the end, the data byte `d` after it, and
the terminator, DECMOD decodes `m` and `d` (R111). -/
theorem decmod_append {c : Cfg} {X Y : List Byte} (m d : Byte) (hofs : Y.length + 3 = c.modeOfs)
    (hmin : c.modeMinLen ≤ (X ++ [m, d] ++ Y ++ [0xFD]).length) :
    decmod c (X ++ [m, d] ++ Y ++ [0xFD]) = modeAndFlag m d := by
  have heom : endsWithEom (X ++ [m, d] ++ Y ++ [0xFD]) = true := endsWithEom_append _ (List.cons_ne_nil _ _)
  have hm : byteFromEnd (X ++ [m, d] ++ Y ++ [0xFD]) c.modeOfs = .ok m := by
    simpa [← hofs] using byteFromEnd_append_cons X (d :: (Y ++ [(0xFD : Byte)])) m
  have hd : byteFromEnd (X ++ [m, d] ++ Y ++ [0xFD]) (c.modeOfs - 1) = .ok d := by
    simpa [← hofs] using byteFromEnd_append_cons (X ++ [m]) (Y ++ [(0xFD : Byte)]) d
  rw [decmod, if_neg hmin.not_gt, heom, hm, hd]
  rfl

/-- DECMOD ignores what stands before a tail of at least MODE_OFS bytes and MODE_MIN_LEN (R112). -/
theorem decmod_append_right {c : Cfg} (X : List Byte) {E : List Byte} (hne : E ≠ []) (hofs : c.modeOfs ≤ E.length)
    (hmin : c.modeMinLen ≤ E.length) : decmod c (X ++ E) = decmod c E := by
  have hX : ¬ (X ++ E).length < c.modeMinLen := by rw [List.length_append]; omega
  rw [decmod, if_neg hX, endsWithEom_append X hne, byteFromEnd_append hofs,
    byteFromEnd_append ((Nat.sub_le _ 1).trans hofs), decmod, if_neg hmin.not_gt]

/-- Settles O27: behind the checks of length and terminator DECMOD is the mode byte's code and the data byte's flag. -/
theorem decmodDecodesOrRaises : Obligations.DecmodDecodesOrRaises := by
  refine ⟨fun p h => by cases p; cases h; rfl, fun s resp => ⟨?accepted, fun h => ?short, fun h => ?unterminated⟩⟩
  case accepted =>
    rintro X Y m d rfl hofs hlen
    refine ⟨fun hhi hlo h13 => ?_, fun h => ?_⟩
    · exact exec_decmod_of_ok s ((decmod_append m d hofs hlen).trans (modeAndFlag_of_le d hhi hlo h13))
    · exact endsInFault_finish_map s ((decmod_append m d hofs hlen).trans (modeAndFlag_of_not_code d h))
  case short => exact endsInFault_finish_map s (decmod_of_rejected (.inl h))
  case unterminated => exact endsInFault_finish_map s (decmod_of_rejected (.inr h))

/-! ### What precedes the end (R112) -/

theorem exec_decfrq (resp : List Byte) (s : State) :
    exec (.decfrq resp) s = .next (s.finish ((decfrq s.cfg resp).map .freq)) := rfl

theorem exec_decmod (resp : List Byte) (s : State) :
    exec (.decmod resp) s = .next (s.finish ((decmod s.cfg resp).map fun r => .mode r.1 r.2)) := rfl

/-- Settles O28: either response decodes like the common ending alone; R5 keeps MODE_OFS within MODE_MIN_LEN. -/
theorem decodersReadOnlyTheEnd : Obligations.DecodersReadOnlyTheEnd := by
  rintro s X X' E ⟨-, -, -, -, hofs3, hofs⟩
  refine ⟨fun h6 hmin => ?_, fun hmin => ?_⟩
  · rw [exec_decfrq, exec_decfrq, decfrq_append_right X h6 hmin, decfrq_append_right X' h6 hmin]
  · have hne : E ≠ [] := List.ne_nil_of_length_pos (by omega)
    have hofsE : s.cfg.modeOfs ≤ E.length := hofs.trans hmin
    rw [exec_decmod, exec_decmod, decmod_append_right X hne hofsE hmin, decmod_append_right X' hne hofsE hmin]

end Sys2Proof.Machine
end

section
/-! PROOFS. The table ROM: what TLOOKUP, TWHOLE, TNAME and TSEG answer (spec/43_table.md R120 to R123), and that nothing
writes it (R124). -/

namespace Sys2Proof.Machine

/-! ### No step writes the ROM or the configuration (R124, R31) -/

/-- `t` has the ROM and the configuration of `s` (R124, R31). -/
def SameRomAndConfig (s t : State) : Prop := t.tbl = s.tbl ∧ t.cfg = s.cfg

theorem exec_pure_sameRomAndConfig {i : Instr} {s t : State} (hi : isSequencer i = false) (h : exec i s = .next t) :
    SameRomAndConfig s t := by
  rcases exec_pure_cases hi h with ⟨k, rfl⟩ | ⟨v, -, rfl⟩
  · exact ⟨State.raise_tbl s k, State.raise_cfg s k⟩
  · exact ⟨State.present_tbl s v, State.present_cfg s v⟩

theorem exec_sequencer_sameRomAndConfig {i : Instr} {s t : State} (hi : isSequencer i = true)
    (h : exec i s = .next t) : SameRomAndConfig s t := by
  obtain ⟨cs, ht, -⟩ := exec_sequencer_frame hi h
  rw [ht]
  exact ⟨rfl, rfl⟩

theorem exec_sameRomAndConfig {i : Instr} {s t : State} (h : exec i s = .next t) : SameRomAndConfig s t := by
  cases hi : isSequencer i with
  | false => exact exec_pure_sameRomAndConfig hi h
  | true => exact exec_sequencer_sameRomAndConfig hi h

/-- Settles O57: neither an operation nor a move of the host's own writes either of them. -/
theorem stepKeepsRomAndConfig : Obligations.StepKeepsRomAndConfig := by
  intro s t h
  rcases step_cases h with rfl | ⟨mv, rest, -, ⟨p, i, -, -, he⟩ | rfl | ⟨-, rfl⟩ | rfl | ⟨F, rfl⟩⟩
  · exact ⟨rfl, rfl⟩                                                -- nothing pending
  · exact exec_sameRomAndConfig (s := { s with pending := rest }) he
  · exact ⟨rfl, rfl⟩                                                -- a reserved code
  · exact ⟨rfl, rfl⟩                                                -- reset
  · exact ⟨rfl, rfl⟩                                                -- a use of the snapshot
  · exact ⟨rfl, rfl⟩                                                -- a call of the host's own

/-! ### The accessors (R120 to R123) -/

/-- TLOOKUP raises IllegalOperation on a band above 11, whatever the entry (R120, D22). -/
theorem tlookup_of_band_gt (t : Table) {band : Nat} (ent : Nat) (h : 11 < band) :
    tlookup t band ent = .error .illegalOperation :=
  dif_neg (Nat.not_lt_of_le h)

/-- TNAME answers for every mode of the table (R122). -/
theorem tname_eq (t : Table) {mode : Nat} (h : mode < 14) (d : Bool) :
    tname t mode d = .ok (if d then t.name[mode][1] else t.name[mode][0]) :=
  dif_pos h

/-- TNAME raises IllegalOperation on a mode above 13 (R122, D22). -/
theorem tname_of_mode_gt (t : Table) {mode : Nat} (d : Bool) (h : 13 < mode) :
    tname t mode d = .error .illegalOperation :=
  dif_neg (Nat.not_lt_of_le h)

/-- TSEG raises IllegalOperation on a band above 11 (R123, D22). -/
theorem tseg_of_band_gt (t : Table) {band : Nat} (h : 11 < band) : tseg t band = .error .illegalOperation :=
  dif_neg (Nat.not_lt_of_le h)

/-! ### The operations (R120 to R123) -/

theorem exec_tlookup_of_ok {s : State} {band ent : Nat} {e : Edge} (h : tlookup s.tbl band ent = .ok e) :
    exec (.tlookup band ent) s = .next (completedWith s (.edges e.lo e.hi)) :=
  congrArg Host.Outcome.next (finish_map_of_ok s h)

/-- TWHOLE is TLOOKUP of entry 3 (R121). -/
theorem exec_twhole (band : Nat) (s : State) : exec (.twhole band) s = exec (.tlookup band 3) s := rfl

theorem exec_tseg_of_ok {s : State} {band n : Nat} (h : tseg s.tbl band = .ok n) :
    exec (.tseg band) s = .next (completedWith s (.segment n)) :=
  congrArg Host.Outcome.next (finish_map_of_ok s h)

/-- TLOOKUP of any entry of the table (R120). -/
theorem exec_tlookup_fin (s : State) (b : Fin 12) (e : Fin 4) :
    exec (.tlookup b e) s = .next (completedWith s (.edges s.tbl.edge[b][e].lo s.tbl.edge[b][e].hi)) :=
  exec_tlookup_of_ok (tlookup_eq s.tbl b.isLt e.isLt)

theorem exec_tlookup_endsInFault (s : State) {band : Nat} (ent : Nat) (h : 11 < band) :
    EndsInFault s .illegalOperation (exec (.tlookup band ent) s) :=
  endsInFault_finish_map s (tlookup_of_band_gt s.tbl ent h)

/-- Settles O29: TLOOKUP answers on the bands of the table and raises above them. -/
theorem tlookupReadsEntryOrRaises : Obligations.TlookupReadsEntryOrRaises :=
  ⟨fun p h => by cases p; cases h; rfl,
    fun s => ⟨exec_tlookup_fin s, fun _ ent => exec_tlookup_endsInFault s ent⟩⟩

/-- Settles O30: entry 3 of what TLOOKUP answers or raises. -/
theorem twholeReadsWholeBandOrRaises : Obligations.TwholeReadsWholeBandOrRaises := by
  refine ⟨fun p h => by cases p; cases h; rfl, fun s => ⟨fun b => ?_, fun band h => ?_⟩⟩
  · exact (exec_twhole b s).trans (exec_tlookup_fin s b 3)
  · rw [exec_twhole]
    exact exec_tlookup_endsInFault s 3 h

/-- Settles O31: TNAME answers on the modes of the table, for either flag, and raises above them. -/
theorem tnameReadsNameOrRaises : Obligations.TnameReadsNameOrRaises := by
  refine ⟨fun p h => by cases p; cases h; rfl, fun s => ⟨fun m => ⟨?unset, ?set⟩, fun mode d h => ?above⟩⟩
  case unset => exact exec_tname_of_ok (tname_eq s.tbl m.isLt false)
  case set => exact exec_tname_of_ok (tname_eq s.tbl m.isLt true)
  case above => exact endsInFault_finish_map s (tname_of_mode_gt s.tbl d h)

/-- Settles O33: TSEG answers on the bands of the table and raises above them. -/
theorem tsegReadsSegmentOrRaises : Obligations.TsegReadsSegmentOrRaises := by
  refine ⟨fun p h => by cases p; cases h; rfl, fun s => ⟨fun b => ?_, fun band h => ?_⟩⟩
  · exact exec_tseg_of_ok (tseg_eq s.tbl b.isLt)
  · exact endsInFault_finish_map s (tseg_of_band_gt s.tbl h)

end Sys2Proof.Machine
end

section
/-! PROOFS. The band and mode classifier: the class CLSMOD gives a mode (spec/44_classify.md R130), and the band CLSBND
finds for a frequency, on any ROM image (R131, R173) and on a well-formed one (spec/10_state.md R29). -/

namespace Sys2Proof.Machine

/-! ### CLSMOD (R130) -/

/-- A mode is Digital by its flag or by its code (R130). -/
theorem digital_test_iff (mode : Nat) (d : Bool) :
    (d || digitalModes.contains mode) = true ↔ d = true ∨ mode = 4 ∨ mode = 8 ∨ mode = 12 ∨ mode = 13 := by
  simp [digitalModes]

/-- The CW modes are CW and CW-R (R130). -/
theorem cwModes_contains_iff (mode : Nat) : cwModes.contains mode = true ↔ mode = 3 ∨ mode = 7 := by
  simp [cwModes]

/-- CLSMOD of a mode of at most 13 (R130). -/
theorem clsmod_of_le {mode : Nat} (d : Bool) (h : mode ≤ 13) :
    clsmod mode d = .ok
      (if d = true ∨ mode = 4 ∨ mode = 8 ∨ mode = 12 ∨ mode = 13 then .digital
       else if mode = 3 ∨ mode = 7 then .cw else .phone) := by
  rw [clsmod, if_neg h.not_gt, apply_ite Except.ok, apply_ite Except.ok]
  simp only [digital_test_iff, cwModes_contains_iff]

/-- CLSMOD raises IllegalOperation on a mode above 13 (R130, D22). -/
theorem clsmod_of_gt {mode : Nat} (d : Bool) (h : 13 < mode) : clsmod mode d = .error .illegalOperation :=
  if_pos h

theorem exec_clsmod_of_ok {mode : Nat} {d : Bool} {c : ModeClass} (s : State) (h : clsmod mode d = .ok c) :
    exec (.clsmod mode d) s = .next (completedWith s (.cls c)) :=
  congrArg Host.Outcome.next (finish_map_of_ok s h)

/-- Settles O34: CLSMOD answers on the modes of the table, for either flag, and raises above them. -/
theorem clsmodClassifiesOrRaises : Obligations.ClsmodClassifiesOrRaises := by
  refine ⟨fun p h => by cases p; cases h; rfl, ⟨rfl, rfl, rfl⟩, fun s mode d => ⟨fun h => ?_, fun h => ?_⟩⟩
  · exact exec_clsmod_of_ok s (clsmod_of_le d h)
  · exact endsInFault_finish_map s (clsmod_of_gt d h)

/-! ### CLSBND on any ROM image (R131) -/

theorem exec_clsbnd_of_ok {s : State} {f10 b : Nat} (h : clsbnd s.tbl f10 = .ok b) :
    exec (.clsbnd f10) s = .next (completedWith s (.band b)) :=
  congrArg Host.Outcome.next (finish_map_of_ok s h)

/-- An operation that ends by its computation, none of whose answers is a fault, returns a fault only if the computation
raises it (R178). -/
theorem error_of_finish_map_out_eq_fault {α : Type} {e : Except FaultKind α} {f : α → Result} {s : State}
    {k : FaultKind} (hf : ∀ a, f a ≠ .fault k) (h : (s.finish (e.map f)).out = .fault k) : e = .error k := by
  cases e with
  | ok a => exact absurd h (hf a)
  | error j => exact congrArg Except.error (Result.fault.inj h)

/-- CLSBND ends in a fault exactly if the scan raises it (R131, R178). -/
theorem exec_clsbnd_endsInFault_iff {s : State} {f10 : Nat} {k : FaultKind} :
    EndsInFault s k (exec (.clsbnd f10) s) ↔ clsbnd s.tbl f10 = .error k := by
  refine ⟨?_, endsInFault_finish_map s⟩
  rintro ⟨t, ht, hout, -⟩
  cases ht
  exact error_of_finish_map_out_eq_fault (f := .band) (fun _ => nofun) hout

/-- Settles O35: the first band at or above the frequency is what the scan answers, and it raises if there is none. -/
theorem clsbndFindsFirstBandOrRaises : Obligations.ClsbndFindsFirstBandOrRaises := by
  refine ⟨fun p h => by cases p; cases h; rfl, fun s f10 => ⟨fun b hb hfirst => ?_, fun h => ?_⟩⟩
  · exact exec_clsbnd_of_ok (clsbnd_eq_ok.mpr ⟨b.isLt, hb, fun b' hb' hlt => hfirst ⟨b', hb'⟩ hlt⟩)
  · exact exec_clsbnd_endsInFault_iff.mpr (clsbnd_eq_error.mpr ⟨fun b hb => h ⟨b, hb⟩, rfl⟩)

/-! ### CLSBND on a well-formed ROM image (R29) -/

/-- On a ROM image that meets WF1 and WF2 a band ends below every later one (R29). -/
theorem wholeBand_hi_lt_lo {t : Table} (h1 : t.WF1) (h2 : t.WF2) {a b : Nat} (hab : a < b) (hb : b < 12) :
    t.edge[a][3].hi < t.edge[b][3].lo := by
  induction b, hab using Nat.le_induction with
  | base => exact h2 ⟨a, by omega⟩
  | succ b hab ih =>
    calc t.edge[a][3].hi < t.edge[b][3].lo := ih (by omega)
      _ ≤ t.edge[b][3].hi := h1 ⟨b, by omega⟩
      _ < t.edge[b + 1][3].lo := h2 ⟨b, by omega⟩

/-- On a ROM image that meets WF1 and WF2 no band ends above the last one (R29). -/
theorem wholeBand_hi_le_last {t : Table} (h1 : t.WF1) (h2 : t.WF2) {b : Nat} (hb : b < 12) :
    t.edge[b][3].hi ≤ t.edge[11][3].hi := by
  rcases (Nat.le_of_lt_succ hb).eq_or_lt with rfl | hlt
  · exact le_rfl
  · exact (wholeBand_hi_lt_lo h1 h2 hlt (by decide)).le.trans (h1 11)

/-- On a ROM image that meets WF1 and WF2 CLSBND answers the band a frequency lies in, because the bands before it end
below it (R29, R131). -/
theorem clsbnd_of_mem_band {t : Table} (h1 : t.WF1) (h2 : t.WF2) {f10 b : Nat} (hb : b < 12)
    (hlo : t.edge[b][3].lo * 100 ≤ f10) (hhi : f10 ≤ t.edge[b][3].hi * 100) : clsbnd t f10 = .ok b := by
  refine clsbnd_eq_ok.mpr ⟨hb, hhi, fun a ha hab => ?_⟩
  have hbelow := wholeBand_hi_lt_lo h1 h2 hab hb
  omega

/-- On a ROM image that meets WF1 and WF2 CLSBND raises exactly above the last band (R29, R131, R173). -/
theorem clsbnd_eq_error_iff_last {t : Table} (h1 : t.WF1) (h2 : t.WF2) {f10 : Nat} :
    clsbnd t f10 = .error .frequencyOutOfRange ↔ t.edge[11][3].hi * 100 < f10 := by
  refine clsbnd_eq_error.trans ⟨fun h => h.1 11 (by decide), fun h => ⟨fun b hb => ?_, rfl⟩⟩
  have hlast := wholeBand_hi_le_last h1 h2 hb
  omega

/-- Settles O36: the bands of a well-formed ROM ascend, so the first not below a frequency contains it. -/
theorem clsbndFindsContainingBand : Obligations.ClsbndFindsContainingBand := by
  rintro s f10 ⟨h1, h2, -⟩
  refine ⟨fun b hlo hhi => ?_, ?_⟩
  · exact exec_clsbnd_of_ok (clsbnd_of_mem_band h1 h2 b.isLt hlo hhi)
  · exact exec_clsbnd_endsInFault_iff.trans (clsbnd_eq_error_iff_last h1 h2)

end Sys2Proof.Machine
end

section
/-! PROOFS. The edge unit: what EDGDEF reads (spec/45_edge.md R140) and how EDGOFS rounds and offsets a frequency
(R141). -/

namespace Sys2Proof.Machine

/-! ### EDGDEF (R140) -/

/-- EDGDEF raises IllegalOperation on a band above 11 or a class above 2 (R140, D22). -/
theorem edgdef_of_gt (t : Table) {band cls : Nat} (h : 11 < band ∨ 2 < cls) :
    edgdef t band cls = .error .illegalOperation :=
  if_pos h

theorem exec_edgdef_of_ok {s : State} {band cls : Nat} {e : Edge} (h : edgdef s.tbl band cls = .ok e) :
    exec (.edgdef band cls) s = .next (completedWith s (.edges e.lo e.hi)) :=
  congrArg Host.Outcome.next (finish_map_of_ok s h)

/-- Settles O37: EDGDEF answers on the bands of the table and the mode classes, and raises above either. -/
theorem edgdefReadsEntryOrRaises : Obligations.EdgdefReadsEntryOrRaises := by
  refine ⟨fun p h => by cases p; cases h; rfl, fun s => ⟨fun b c => ?_, fun band cls h => ?_⟩⟩
  · exact exec_edgdef_of_ok (edgdef_eq s.tbl b.isLt c.isLt)
  · exact endsInFault_finish_map s (edgdef_of_gt s.tbl h)

/-! ### EDGOFS (R141) -/

/-- A frequency of `q` kHz and `r` hundredths rounds to `q` below the tie and to `q + 1` above it; at the tie ROUND_TIE
decides (R141, D18). -/
theorem roundKhz_add (tie : RoundTie) (q : Nat) {r : Nat} (hr : r < 100) :
    roundKhz tie (100 * q + r) =
      if r < 50 then q else if 50 < r then q + 1
      else if tie = .halfUp then q + 1 else if q % 2 = 0 then q else q + 1 := by
  have hdiv : (100 * q + r) / 100 = q := by omega
  have hmod : (100 * q + r) % 100 = r := by omega
  unfold roundKhz
  rw [hdiv, hmod]
  cases tie with
  | halfUp => rfl
  | halfEven => rfl

theorem exec_edgofs (f10 : Nat) (ofs wid : Int) (s : State) :
    exec (.edgofs f10 ofs wid) s = .next (completedWith s
      (.edges (roundKhz s.cfg.roundTie f10 - ofs) (roundKhz s.cfg.roundTie f10 - ofs + wid))) := rfl

/-- Settles O38: EDGOFS offsets the frequency rounded as `roundKhz_add` says. -/
theorem edgofsRoundsAndOffsets : Obligations.EdgofsRoundsAndOffsets := by
  refine ⟨fun p h => by cases p; cases h; rfl, fun s q r ofs wid hr => ?_⟩
  rw [exec_edgofs, roundKhz_add s.cfg.roundTie q hr]

end Sys2Proof.Machine
end

section
/-! PROOFS. The sequencer (spec/46_sequencer.md): what QUERY, APPLYD and APPLYO end in, the frames they send and the
registers they leave (R150 to R158), and that the other operations write the result ports alone (R153). -/

namespace Sys2Proof.Machine

/-! ### Fault codes and the register invariant (R150, R170) -/

theorem FaultKind.code_ne_zero (k : FaultKind) : k.code ≠ 0 := by cases k <;> decide

/-- The code of a fault a sequencer operation can end in is 1 to 4 (R170, R175). -/
theorem FaultKind.code_range {k : FaultKind} (h : k ≠ .illegalOperation) : 1 ≤ k.code.toNat ∧ k.code.toNat ≤ 4 := by
  cases k
  case illegalOperation => exact absurd rfl h
  all_goals decide

theorem FaultKind.code_eq_four_iff (k : FaultKind) : k.code = 4 ↔ k = .valueOutOfRange := by cases k <;> decide

/-- Error with the code of a sequencer fault agrees with R150 if a ValueOutOfRange comes after a snapshot. -/
theorem regsAgree_of_error {t : State} {k : FaultKind} (hseq : t.seq = .error) (herr : t.err = k.code)
    (hk : k ≠ .illegalOperation) (hv : k = .valueOutOfRange → t.snap.valid = true) : t.RegsAgree := by
  rw [State.RegsAgree, hseq, herr]
  exact ⟨k.code_range hk, fun h => hv (k.code_eq_four_iff.mp h)⟩

/-- The snapshot a query stores is legal: the decoders bound its fields, and its class and band are the classifier's
(R154 Q5, R23). -/
theorem QueryGoesThrough.snapLegal {s t : State} {r1 r2 : List Byte} {f m : Nat} {d : Bool} {c : ModeClass} {b : Nat}
    (h : QueryGoesThrough s r1 r2 f m d c b) (htbl : t.tbl = s.tbl) (hsnap : t.snap = freshSnap f m d c b) :
    t.SnapLegal := by
  rw [State.SnapLegal, hsnap, htbl, freshSnap_f10 h.freq_le, freshSnap_mode h.mode_le, freshSnap_band h.band_lt]
  exact ⟨h.freq_le, h.mode_le, ⟨c, h.q5, rfl⟩, Nat.le_of_lt_succ h.band_lt, h.q6⟩

/-- A fault of a query step keeps the invariant: SNAP is as it was, and the fault is not a ValueOutOfRange (R178). -/
theorem inv_endedInError {s : State} (hs : s.Inv) {k : FaultKind}
    (hk : k = .transportUnavailable ∨ k = .malformedResponse ∨ k = .frequencyOutOfRange) (cs : List Call) :
    (endedInError s k cs).Inv := by
  refine ⟨regsAgree_of_error (k := k) rfl rfl ?_ ?_, hs.2⟩
  all_goals rcases hk with rfl | rfl | rfl <;> exact nofun

/-- A sequencer operation keeps the invariant: where it does not keep the old snapshot it leaves a legal fresh one. -/
theorem exec_sequencer_inv {i : Instr} {s t : State} (hs : s.Inv) (hi : isSequencer i = true)
    (h : exec i s = .next t) : t.Inv := by
  rcases exec_sequencer_shape hi h with ⟨k, cs, hk, -, -, rfl⟩ | ⟨r1, r2, f, m, d, c, b, hg, ⟨-, rfl⟩ |
    ⟨lower, upper, -, -, ⟨rfl, -⟩ | ⟨F2, F3, cs, -, -, -, rfl | ⟨-, rfl⟩⟩⟩⟩
  · exact inv_endedInError hs hk cs                                                 -- a query step raises
  · exact ⟨⟨rfl, rfl⟩, fun _ => hg.snapLegal rfl rfl⟩                               -- QUERY returns
  · exact ⟨regsAgree_of_error (k := .valueOutOfRange) rfl rfl nofun fun _ => rfl,
      fun _ => hg.snapLegal rfl rfl⟩                                                -- T1 raises
  · exact ⟨regsAgree_of_error (k := .transportUnavailable) rfl rfl nofun nofun,
      fun _ => hg.snapLegal rfl rfl⟩                                                -- T2, T3 or T4 raises
  · exact ⟨⟨rfl, rfl⟩, fun _ => hg.snapLegal rfl rfl⟩                               -- an apply returns

theorem exec_inv {i : Instr} {s t : State} (hs : s.Inv) (h : exec i s = .next t) : t.Inv := by
  cases hi : isSequencer i with
  | false => rcases exec_pure_cases hi h with ⟨k, rfl⟩ | ⟨v, -, rfl⟩ <;> exact hs
  | true => exact exec_sequencer_inv hs hi h

/-- Settles O54: an operation keeps the invariant, reset starts it anew, and no other move touches the registers. -/
theorem stepKeepsRegisterInvariant : Obligations.StepKeepsRegisterInvariant := by
  intro s t hs h
  rcases step_cases h with rfl | ⟨mv, rest, -, ⟨p, i, -, -, he⟩ | rfl | ⟨-, rfl⟩ | rfl | ⟨F, rfl⟩⟩
  · exact hs                                            -- nothing pending
  · exact exec_inv (s := { s with pending := rest }) hs he
  · exact hs                                            -- a reserved code
  · exact ⟨⟨rfl, rfl⟩, nofun⟩                           -- reset
  · exact hs                                            -- a use of the snapshot
  · exact hs                                            -- a call of the host's own

/-! ### How operations end (R150, R153, R158) -/

/-- Settles O46: each way a sequencer operation ends sets SEQ, ERR and `r_fault` together. -/
theorem sequencerEndsReadyOrError : Obligations.SequencerEndsReadyOrError := by
  intro i s t hi h
  rcases exec_sequencer_cases hi h with ⟨v, k, -, rfl⟩ | ⟨r1, r2, f, m, d, c, b, -, ⟨-, rfl⟩ |
    ⟨lower, upper, -, -, ⟨v, k, -, rfl⟩ | ⟨v, ht, rfl⟩⟩⟩
  · exact ⟨rfl, (if_neg k.code_ne_zero).symm⟩           -- a query step raises
  · exact ⟨rfl, rfl⟩                                    -- QUERY returns
  · exact ⟨rfl, (if_neg k.code_ne_zero).symm⟩           -- the tail of an apply raises
  · obtain ⟨F1, F2, F3, _, _, _, -, -, -, -, rfl⟩ := applyTail_eq_done.mp ht
    exact ⟨rfl, rfl⟩                                    -- an apply returns

/-- Settles O50: such an operation ends by presenting a value or by raising a fault. -/
theorem pureOperationsWriteOnlyResults : Obligations.PureOperationsWriteOnlyResults := by
  intro i s t hi h
  rcases exec_pure_cases hi h with ⟨k, rfl⟩ | ⟨v, hv, rfl⟩
  · exact ⟨rfl, .inl ⟨k, rfl, rfl⟩⟩
  · exact ⟨rfl, .inr ⟨hv.2, rfl⟩⟩

theorem exec_pure_calls {i : Instr} {s t : State} (hi : isSequencer i = false) (h : exec i s = .next t) :
    t.calls = s.calls := by
  rcases exec_pure_cases hi h with ⟨k, rfl⟩ | ⟨v, -, rfl⟩
  · exact State.raise_calls s k
  · exact State.present_calls s v

theorem queryCalls_frames (r1 r2 : List Byte) : (queryCalls r1 r2).map (·.frame) = [bldfrq, bldmod] := rfl

theorem caller_of_mem_queryCalls {r1 r2 : List Byte} {k : Call} (h : k ∈ queryCalls r1 r2) : k.caller = .block := by
  simp only [queryCalls, List.mem_cons, List.not_mem_nil, or_false] at h
  rcases h with rfl | rfl <;> rfl

/-- Settles O49: a query step that raises, or T1, comes after no more than the two requests, and the calls of the tail
follow both. -/
theorem framesSentInFixedOrder : Obligations.FramesSentInFixedOrder := by
  intro i s t h
  cases hi : isSequencer i with
  | false =>
    exact ⟨[], by simp [exec_pure_calls hi h], nofun, fun _ => rfl, fun _ => List.nil_prefix, .inl List.nil_prefix⟩
  | true =>
    rcases exec_sequencer_shape hi h with ⟨k, cs, -, hF, hcs, rfl⟩ | ⟨r1, r2, f, m, d, c, b, -, ⟨-, rfl⟩ |
      ⟨lower, upper, hne, -, ⟨rfl, -⟩ | ⟨F2, F3, cs, ⟨hsel, seg, -, hedg⟩, hF, hcs, ht⟩⟩⟩
    · have hpre : cs.map (·.frame) <+: [bldfrq, bldmod] := by rcases hF with h | h <;> simp [h]
      exact ⟨cs, rfl, fun k hk => (hcs k hk).1, nofun, fun _ => hpre, .inl hpre⟩        -- a query step raises
    · exact ⟨queryCalls r1 r2, rfl, fun _ => caller_of_mem_queryCalls, nofun, fun _ => List.prefix_rfl,
        .inl List.prefix_rfl⟩                                                           -- QUERY returns
    · exact ⟨queryCalls r1 r2, rfl, fun _ => caller_of_mem_queryCalls, nofun, fun _ => List.prefix_rfl,
        .inl List.prefix_rfl⟩                                                           -- T1 raises
    · have hcalls : t.calls = s.calls ++ (queryCalls r1 r2 ++ cs) := by rcases ht with rfl | ⟨-, rfl⟩ <;> rfl
      have hblock : ∀ k ∈ queryCalls r1 r2 ++ cs, k.caller = .block := fun k hk =>
        (List.mem_append.mp hk).elim caller_of_mem_queryCalls fun hk => (hcs k hk).1
      have hpre : (queryCalls r1 r2 ++ cs).map (·.frame) <+: [bldfrq, bldmod, bldfix s.cfg, F2, F3] := by
        rw [List.map_append, queryCalls_frames]
        exact (List.prefix_append_right_inj [bldfrq, bldmod]).mpr hF
      exact ⟨_, hcalls, hblock, nofun, fun hq => absurd hq hne,
        .inr ⟨F2, F3, seg, lower, upper, hsel, hedg, hpre⟩⟩                             -- T2 or a later step

/-! ### The old registers are not consulted (R154, R152) -/

/-- `t'` is `t` but for SNAP. -/
def SameButSnap (t t' : State) : Prop := ∃ sn, t' = { t with snap := sn }

/-- Two runs that end alike: both completed with the same value, in states related by `P`; or both raised the same
fault, in states that differ in SNAP at most. -/
inductive Ran.Alike {α : Type} (P : State → State → Prop) : Ran α → Ran α → Prop
  | done {t t' : State} {a : α} (h : P t t') : Alike P (.done t a) (.done t' a)
  | raised {t t' : State} {k : FaultKind} (h : SameButSnap t t') : Alike P (.raised t k) (.raised t' k)

/-- Runs that go on alike from related states end alike. -/
theorem Ran.Alike.bind {α β : Type} {P Q : State → State → Prop} {r r' : Ran α} {f : State → α → Ran β}
    (h : r.Alike P r') (hf : ∀ t t' a, P t t' → (f t a).Alike Q (f t' a)) : (r.bind f).Alike Q (r'.bind f) := by
  cases h with
  | done h => exact hf _ _ _ h
  | raised h => exact .raised h

theorem Ran.Alike.refl {α : Type} (r : Ran α) : r.Alike Eq r := by
  cases r with
  | done t a => exact .done rfl
  | raised t k => exact .raised ⟨t.snap, rfl⟩

/-- Operations whose runs end alike leave the same state, or both a fault in Error with SNAP alone different. -/
theorem Ran.Alike.close {r r' : Ran Result} (h : r.Alike Eq r') :
    r'.close = r.close ∨ r.close.seq = .error ∧ SameButSnap r.close r'.close := by
  cases h with
  | done h => exact .inl (by rw [h])
  | raised h =>
    obtain ⟨sn, rfl⟩ := h
    exact .inr ⟨rfl, sn, rfl⟩

theorem compute_alike {α : Type} (s : State) (sn : Snap) (e : Except FaultKind α) :
    (compute s e).Alike SameButSnap (compute { s with snap := sn } e) := by
  cases e with
  | ok a => exact .done ⟨sn, rfl⟩
  | error k => exact .raised ⟨sn, rfl⟩

/-- A call does not look at SNAP (R50). -/
theorem transceive_alike (s : State) (sn : Snap) (F : List Byte) :
    (transceive s F).Alike SameButSnap (transceive { s with snap := sn } F) := by
  have hans : ({ s with snap := sn } : State).answerAt 0 F = s.answerAt 0 F := rfl
  cases h : s.answerAt 0 F with
  | bytes r =>
    rw [transceive_eq_done.mpr ⟨h, rfl⟩, transceive_eq_done.mpr ⟨hans.trans h, rfl⟩]
    exact .done ⟨sn, rfl⟩
  | unavailable =>
    rw [transceive_eq_raised.mpr ⟨h, rfl, rfl⟩, transceive_eq_raised.mpr ⟨hans.trans h, rfl, rfl⟩]
    exact .raised ⟨sn, rfl⟩

/-- The query steps do not consult the old SEQ, SNAP and ERR: Q0 writes two of them, and Q6 the third whole (R154). -/
theorem querySteps_alike (s : State) (q : Seq) (sn : Snap) (e : BitVec 3) :
    (querySteps s).Alike Eq (querySteps { s with seq := q, snap := sn, err := e }) := by
  refine (transceive_alike s.beginSequencer sn bldfrq).bind ?_
  rintro s1 _ r1 ⟨sn1, rfl⟩
  refine (compute_alike s1 sn1 (decfrq s1.cfg r1)).bind ?_
  rintro s2 _ f ⟨sn2, rfl⟩
  refine (transceive_alike s2 sn2 bldmod).bind ?_
  rintro s3 _ r2 ⟨sn3, rfl⟩
  refine (compute_alike s3 sn3 (decmod s3.cfg r2)).bind ?_
  rintro s4 _ md ⟨sn4, rfl⟩
  refine (compute_alike s4 sn4 (clsmod md.1 md.2)).bind ?_
  rintro s5 _ c ⟨sn5, rfl⟩
  refine (compute_alike s5 sn5 (clsbnd s5.tbl f)).bind ?_
  rintro s6 _ b ⟨sn6, rfl⟩
  exact .done rfl

/-- A sequencer operation is the query steps and what it does with the state they leave (R154 to R156). -/
theorem exec_sequencer_eq_close {i : Instr} (hi : isSequencer i = true) :
    ∃ g : State → Unit → Ran Result, ∀ s, exec i s = .next ((querySteps s).bind g).close := by
  cases i
  case query | applyd | applyo => exact ⟨_, fun _ => rfl⟩
  all_goals cases hi

/-- Settles O53: the two runs end alike, so they leave the same state but for the SNAP a fault of a query step keeps. -/
theorem sequencerIgnoresOldRegisters : Obligations.SequencerIgnoresOldRegisters := by
  intro i s t t' q sn e hi h h'
  obtain ⟨g, hg⟩ := exec_sequencer_eq_close hi
  rw [hg] at h h'
  cases h
  cases h'
  have halike := (querySteps_alike s q sn e).bind (f := g) (Q := Eq) fun t _ a ht => ht ▸ .refl (g t a)
  rcases halike.close with heq | ⟨herr, sn', hsn⟩
  · rw [heq]
    exact ⟨rfl, rfl, rfl, rfl, rfl, fun _ => rfl⟩
  · rw [hsn]
    exact ⟨rfl, rfl, rfl, rfl, rfl, fun hready => absurd (herr.symm.trans hready) nofun⟩

/-! ### What an operation whose query goes through does (R154 to R157) -/

section
variable {s : State} {r1 r2 : List Byte} {f m : Nat} {d : Bool} {c : ModeClass} {b : Nat}

theorem querySteps_of_goesThrough (hg : QueryGoesThrough s r1 r2 f m d c b) :
    querySteps s = .done (freshState s f m d c b) () :=
  querySteps_eq_done.mpr ⟨r1, r2, f, m, d, c, b, hg, rfl⟩

/-- An apply whose edges can be computed goes on with its tail (R155, R156). -/
theorem applyWith_of_edges {edges : State → Except FaultKind (Int × Int)} {t : State} {lower upper : Int}
    (hq : querySteps s = .done t ()) (he : edges t = .ok (lower, upper)) :
    applyWith edges s =
      ((applyTail t lower upper).bind fun u _ => .done u (.edges lower upper)).close := by
  rw [applyWith, hq, bind_done, he]
  rfl

/-- The edges of APPLYD are those EDGDEF answers (R155). -/
theorem applyEdges_applyd_eq_some {lower upper : Int} :
    applyEdges .applyd s f c b = some (lower, upper) ↔
      ∃ e, edgdef s.tbl b c.code.toNat = .ok e ∧ (e.lo : Int) = lower ∧ (e.hi : Int) = upper := by
  cases h : edgdef s.tbl b c.code.toNat <;> simp [applyEdges, h, Except.toOption]

/-- An apply whose query goes through runs its tail with the edges of the fresh snapshot (R155, R156). -/
theorem exec_apply_of_goesThrough {i : Instr} {lower upper : Int} (hg : QueryGoesThrough s r1 r2 f m d c b)
    (he : applyEdges i s f c b = some (lower, upper)) :
    exec i s = .next
      ((applyTail (freshState s f m d c b) lower upper).bind fun u _ => .done u (.edges lower upper)).close := by
  have hq := querySteps_of_goesThrough hg
  cases i
  case applyd =>
    obtain ⟨e, hedge, rfl, rfl⟩ := applyEdges_applyd_eq_some.mp he
    refine congrArg Host.Outcome.next (applyWith_of_edges hq ?_)
    simp only [freshState_eq hg, madeCalls, freshSnap_band hg.band_lt]
    exact congrArg (Except.map _) hedge
  case applyo ofs wid =>
    refine congrArg Host.Outcome.next (applyWith_of_edges hq ?_)
    simp only [freshState_eq hg, madeCalls, freshSnap_f10 hg.freq_le, Option.some.inj he]
  all_goals cases he

/-! ### The apply tail, call by call (R157) -/

/-- The state inside an apply tail, the calls `cs` made since the operation began in `s` and the snapshot `sn` stored
(R150, R157). -/
def applyingState (s : State) (sn : Snap) (cs : List Call) : State :=
  { madeCalls s cs with snap := sn, err := 0, seq := .applying }

theorem freshState_beginTail (hg : QueryGoesThrough s r1 r2 f m d c b) :
    (freshState s f m d c b).beginTail = applyingState s (freshSnap f m d c b) (queryCalls r1 r2) := by
  rw [freshState_eq hg]
  rfl

theorem answerAt_applyingState (s : State) (sn : Snap) (cs : List Call) (F : List Byte) :
    (applyingState s sn cs).answerAt 0 F = s.answerAt cs.length F := by
  simp [State.answerAt, applyingState, madeCalls]

/-- A call in an apply tail is recorded with SEQ = Applying, after the calls before it (R150, R157). -/
theorem afterCall_applyingState {sn : Snap} {cs : List Call} {F : List Byte} {a : Answer}
    (h : s.answerAt cs.length F = a) :
    (applyingState s sn cs).afterCall .block F = applyingState s sn (cs ++ [tailCall F a]) := by
  rw [afterCall_eq, answerAt_applyingState, h, applyingState, applyingState, ← madeCalls_madeCalls]
  rfl

theorem transceive_applyingState_of_bytes {sn : Snap} {cs : List Call} {F x : List Byte}
    (h : s.answerAt cs.length F = .bytes x) :
    transceive (applyingState s sn cs) F = .done (applyingState s sn (cs ++ [tailCall F (.bytes x)])) x := by
  rw [transceive_eq_done, answerAt_applyingState]
  exact ⟨h, (afterCall_applyingState h).symm⟩

theorem transceive_applyingState_of_unavailable {sn : Snap} {cs : List Call} {F : List Byte}
    (h : s.answerAt cs.length F = .unavailable) :
    transceive (applyingState s sn cs) F =
      .raised (applyingState s sn (cs ++ [tailCall F .unavailable])) .transportUnavailable := by
  rw [transceive_eq_raised, answerAt_applyingState]
  exact ⟨h, (afterCall_applyingState h).symm, rfl⟩

/-- Steps T2 to T5: the three setup frames sent in turn (R157). -/
def sendSetup (s : State) (F1 F2 F3 : List Byte) : Ran Unit :=
  (transceive s F1).bind fun s2 _ =>
  (transceive s2 F2).bind fun s3 _ =>
  (transceive s3 F3).bind fun s4 _ =>
  .done s4.endTail ()

/-- A tail whose setup frames build sends them (R157 T1). -/
theorem applyTail_of_setupBuilds {lower upper : Int} {F2 F3 : List Byte} (hg : QueryGoesThrough s r1 r2 f m d c b)
    (hb : SetupBuilds s b lower upper F2 F3) :
    applyTail (freshState s f m d c b) lower upper =
      sendSetup (applyingState s (freshSnap f m d c b) (queryCalls r1 r2)) (bldfix s.cfg) F2 F3 := by
  obtain ⟨hsel, seg, hseg, hedg⟩ := hb
  have hset : setupFrames (applyingState s (freshSnap f m d c b) (queryCalls r1 r2)) lower upper =
      .ok (bldfix s.cfg, F2, F3) :=
    setupFrames_eq_ok.mpr ⟨seg, (congrArg (tseg s.tbl) (freshSnap_band hg.band_lt f m d c)).trans hseg, rfl, hsel, hedg⟩
  rw [applyTail, freshState_beginTail hg, hset]
  rfl

/-- An apply whose setup frames build ends as sending them ends (R155 to R157). -/
theorem exec_apply_of_setupBuilds {i : Instr} {lower upper : Int} {F2 F3 : List Byte}
    (hg : QueryGoesThrough s r1 r2 f m d c b) (he : applyEdges i s f c b = some (lower, upper))
    (hb : SetupBuilds s b lower upper F2 F3) :
    exec i s = .next
      ((sendSetup (applyingState s (freshSnap f m d c b) (queryCalls r1 r2)) (bldfix s.cfg) F2 F3).bind
        fun u _ => .done u (.edges lower upper)).close := by
  rw [exec_apply_of_goesThrough hg he, applyTail_of_setupBuilds hg hb]

/-- An apply all of whose setup frames are answered ends Ready and returns its edges (R157 T5). -/
theorem exec_apply_of_answered {i : Instr} {lower upper : Int} {F2 F3 x1 x2 x3 : List Byte}
    (hg : QueryGoesThrough s r1 r2 f m d c b) (he : applyEdges i s f c b = some (lower, upper))
    (hb : SetupBuilds s b lower upper F2 F3) (h1 : s.answerAt 2 (bldfix s.cfg) = .bytes x1)
    (h2 : s.answerAt 3 F2 = .bytes x2) (h3 : s.answerAt 4 F3 = .bytes x3) :
    exec i s = .next (endedReady s (.edges lower upper) (freshSnap f m d c b) (queryCalls r1 r2 ++
      [tailCall (bldfix s.cfg) (.bytes x1), tailCall F2 (.bytes x2), tailCall F3 (.bytes x3)])) := by
  rw [exec_apply_of_setupBuilds hg he hb, sendSetup, transceive_applyingState_of_bytes h1, bind_done,
    transceive_applyingState_of_bytes h2, bind_done, transceive_applyingState_of_bytes h3]
  rfl

end

/-! ### The operations, on an answering transport and on one that fails (R154 to R157) -/

/-- Settles O39: the fresh snapshot is stored, and presented. -/
theorem queryStoresAndReturnsSnapshot : Obligations.QueryStoresAndReturnsSnapshot := by
  refine ⟨fun p h => by cases p; cases h; rfl, fun s r1 r2 f m d c b hg => ?_⟩
  rw [exec, execQuery, querySteps_of_goesThrough hg, freshState_eq hg]
  rfl

/-- Settles O40: the edges are the ROM's for the band and class found. -/
theorem applydSendsDefaultEdges : Obligations.ApplydSendsDefaultEdges := by
  refine ⟨fun p h => by cases p; cases h; rfl, fun s r1 r2 x1 x2 x3 F2 F3 f m d c b e hg he hb h1 h2 h3 => ?_⟩
  exact exec_apply_of_answered hg (applyEdges_applyd_eq_some.mpr ⟨e, he, rfl, rfl⟩) hb h1 h2 h3

/-- Settles O41: the edges are EDGOFS's for the frequency found. -/
theorem applyoSendsOffsetEdges : Obligations.ApplyoSendsOffsetEdges := by
  refine ⟨fun p h => by cases p; cases h; rfl, fun s r1 r2 x1 x2 x3 F2 F3 f m d c b ofs wid lower upper hg he => ?_⟩
  exact exec_apply_of_answered hg (congrArg some he)

/-- Settles O44: the call that fails is recorded like those before it, and ends the operation. -/
theorem applyTransportFaultKeepsSentFrames : Obligations.ApplyTransportFaultKeepsSentFrames := by
  intro i s r1 r2 F2 F3 f m d c b lower upper hg he hb
  rw [exec_apply_of_setupBuilds hg he hb, sendSetup]
  refine ⟨fun h1 => ?_, fun x1 h1 => ?_⟩
  · rw [transceive_applyingState_of_unavailable h1]
    rfl
  rw [transceive_applyingState_of_bytes h1, bind_done]
  refine ⟨fun h2 => ?_, fun x2 h2 h3 => ?_⟩
  · rw [transceive_applyingState_of_unavailable h2]
    rfl
  rw [transceive_applyingState_of_bytes h2, bind_done, transceive_applyingState_of_unavailable h3]
  rfl

/-! ### Edges that cannot be encoded (R157 T1, R155) -/

/-- Step T1 raises ValueOutOfRange for an edge that is not 0 to 99999 (R157, R104). -/
theorem setupFrames_of_edges_out_of_range {s : State} {lower upper : Int} (hband : s.snap.band.toNat < 12)
    (h : lower < 0 ∨ 99999 < lower ∨ upper < 0 ∨ 99999 < upper) :
    setupFrames s lower upper = .error .valueOutOfRange := by
  cases hs : setupFrames s lower upper with
  | ok Fs =>
    obtain ⟨seg, -, -, -, hedg⟩ := setupFrames_eq_ok.mp hs
    rw [bldedg_of_out_of_range (by omega)] at hedg
    cases hedg
  | error k => rw [setupFrames_error hband hs]

/-- Settles O43: T1 raises before any frame is sent. -/
theorem applyRejectsEdgesBeforeSetup : Obligations.ApplyRejectsEdgesBeforeSetup := by
  intro i s r1 r2 f m d c b lower upper hg he hout
  have hband : (freshSnap f m d c b).band.toNat < 12 := by rw [freshSnap_band hg.band_lt]; exact hg.band_lt
  rw [exec_apply_of_goesThrough hg he, applyTail, freshState_beginTail hg,
    setupFrames_of_edges_out_of_range hband hout]
  rfl

/-- The edges of APPLYD on a ROM that meets WF3 are 0 to 99999 (R155, R29). -/
theorem applyd_edges_in_range {s : State} {f : Nat} {c : ModeClass} {b : Nat} {lower upper : Int} (ht : s.tbl.WF3)
    (h : applyEdges .applyd s f c b = some (lower, upper)) :
    (0 ≤ lower ∧ lower ≤ 99999) ∧ 0 ≤ upper ∧ upper ≤ 99999 := by
  obtain ⟨e, he, rfl, rfl⟩ := applyEdges_applyd_eq_some.mp h
  obtain ⟨hb, hc, rfl⟩ := tlookup_eq_ok (tlookup_of_edgdef_ok he)
  have hle : s.tbl.edge[b][c.code.toNat].lo ≤ 99999 ∧ s.tbl.edge[b][c.code.toNat].hi ≤ 99999 :=
    ht ⟨b, hb⟩ ⟨c.code.toNat, hc⟩
  omega

/-- With two-digit segments and a slot as R5 says, the setup frames build for any edges 0 to 99999 (R157 T1). -/
theorem exists_setupBuilds {s : State} {b : Nat} {lower upper : Int} (ht : s.tbl.WF4) (hc : s.cfg.WellFormed)
    (hb : b < 12) (hlo : 0 ≤ lower ∧ lower ≤ 99999) (hup : 0 ≤ upper ∧ upper ≤ 99999) :
    ∃ F2 F3, SetupBuilds s b lower upper F2 F3 := by
  obtain ⟨-, -, hslot, -⟩ := hc
  exact ⟨_, _, bldsel_eq_ok.mpr ⟨hslot, rfl⟩, _, tseg_eq s.tbl hb,
    bldedg_eq_ok.mpr ⟨ht ⟨b, hb⟩, hslot, hlo, hup, rfl⟩⟩

/-- Settles O48: ValueOutOfRange is what T1 raises where the setup frames do not build, and here they do. -/
theorem applydNeverOutOfRange : Obligations.ApplydNeverOutOfRange := by
  rintro s t ⟨-, -, wf3, wf4, -⟩ hc h
  rcases exec_sequencer_shape rfl h with ⟨k, cs, hk, -, -, rfl⟩ | ⟨r1, r2, f, m, d, c, b, hg, ⟨hq, -⟩ |
    ⟨lower, upper, -, he, ⟨-, hno⟩ | ⟨F2, F3, cs, -, -, -, rfl | ⟨-, rfl⟩⟩⟩⟩
  · rcases hk with rfl | rfl | rfl <;> exact nofun      -- a query step raises something else
  · cases hq                                            -- APPLYD is not QUERY
  · obtain ⟨hlo, hup⟩ := applyd_edges_in_range wf3 he
    exact absurd (exists_setupBuilds wf4 hc hg.band_lt hlo hup) hno
  · exact nofun                                         -- T2, T3 or T4 raises TransportUnavailable
  · exact nofun                                         -- APPLYD returns

end Sys2Proof.Machine
end

section
/-! PROOFS. Faults (spec/60_exceptions.md): their codes (R170), the fault that no sequencer operation ends in (R175), and
where the query steps fault, with the state that leaves (R177, R178). -/

namespace Sys2Proof.Machine

/-- Settles O45: `FaultKind.code` numbers the faults in the order of R170. -/
theorem faultCodes : Obligations.FaultCodes := ⟨rfl, rfl, rfl, rfl, rfl⟩

/-- Settles O47: the query steps raise one of three other faults, T1 ValueOutOfRange, T2 to T4 TransportUnavailable. -/
theorem sequencerNeverIllegal : Obligations.SequencerNeverIllegal := by
  intro i s t hi h
  rcases exec_sequencer_shape hi h with ⟨k, cs, hk, -, -, rfl⟩ | ⟨r1, r2, f, m, d, c, b, -, ⟨-, rfl⟩ |
    ⟨lower, upper, -, -, ⟨rfl, -⟩ | ⟨F2, F3, cs, -, -, -, rfl | ⟨-, rfl⟩⟩⟩⟩
  · rcases hk with rfl | rfl | rfl <;> exact nofun      -- a query step raises
  · exact nofun                                         -- QUERY returns
  · exact nofun                                         -- T1 raises
  · exact nofun                                         -- T2, T3 or T4 raises
  · exact nofun                                         -- an apply returns

/-! ### The query steps, call by call (R154, R177) -/

@[simp] theorem afterFrqCall_cfg (s : State) : (afterFrqCall s).cfg = s.cfg := rfl
@[simp] theorem afterModCall_cfg (s : State) : (afterModCall s).cfg = s.cfg := rfl
@[simp] theorem afterModCall_tbl (s : State) : (afterModCall s).tbl = s.tbl := rfl

section
variable {s : State} {r : List Byte}

/-- Q1, the transport answering. -/
theorem transceive_beginSequencer_of_bytes (h : s.answerAt 0 bldfrq = .bytes r) :
    transceive s.beginSequencer bldfrq = .done (afterFrqCall s) r :=
  transceive_eq_done.mpr ⟨h, rfl⟩

/-- Q1, the transport failing. -/
theorem transceive_beginSequencer_of_unavailable (h : s.answerAt 0 bldfrq = .unavailable) :
    transceive s.beginSequencer bldfrq = .raised (afterFrqCall s) .transportUnavailable :=
  transceive_eq_raised.mpr ⟨h, rfl, rfl⟩

theorem answerAt_afterFrqCall (s : State) (k : Nat) (F : List Byte) :
    (afterFrqCall s).answerAt k F = s.answerAt (k + 1) F :=
  answerAt_afterCall s.beginSequencer .block bldfrq F k

/-- Q3, the transport answering. -/
theorem transceive_afterFrqCall_of_bytes (h : s.answerAt 1 bldmod = .bytes r) :
    transceive (afterFrqCall s) bldmod = .done (afterModCall s) r :=
  transceive_eq_done.mpr ⟨(answerAt_afterFrqCall s 0 bldmod).trans h, rfl⟩

/-- Q3, the transport failing. -/
theorem transceive_afterFrqCall_of_unavailable (h : s.answerAt 1 bldmod = .unavailable) :
    transceive (afterFrqCall s) bldmod = .raised (afterModCall s) .transportUnavailable :=
  transceive_eq_raised.mpr ⟨(answerAt_afterFrqCall s 0 bldmod).trans h, rfl, rfl⟩

end

/-- A fault at Q1 or Q2: the frequency request has been made, SNAP is as it was (R178). -/
theorem enterError_afterFrqCall {s : State} {a : Answer} (h : s.answerAt 0 bldfrq = a) (k : FaultKind) :
    (afterFrqCall s).enterError k = endedInError s k [frqCall a] := by
  rw [afterFrqCall_eq, h]
  rfl

/-- A fault at Q3, Q4 or Q5: both requests have been made, SNAP is as it was (R178). -/
theorem enterError_afterModCall {s : State} {a1 a2 : Answer} (h1 : s.answerAt 0 bldfrq = a1)
    (h2 : s.answerAt 1 bldmod = a2) (k : FaultKind) :
    (afterModCall s).enterError k = endedInError s k [frqCall a1, modCall a2] := by
  rw [afterModCall_eq, h1, h2]
  rfl

/-- Settles O42: the steps are run one after the other, and the one that raises ends the operation. -/
theorem queryStepFaults : Obligations.QueryStepFaults := by
  intro i s hi
  obtain ⟨g, hg⟩ := exec_sequencer_eq_close hi
  rw [hg, querySteps]
  refine ⟨fun q1 => ?_, fun r1 q1 => ?_⟩
  · rw [transceive_beginSequencer_of_unavailable q1]
    exact congrArg Host.Outcome.next (enterError_afterFrqCall q1 _)
  rw [transceive_beginSequencer_of_bytes q1, bind_done, afterFrqCall_cfg]
  refine ⟨fun q2 => ?_, fun f q2 => ?_⟩
  · rw [q2]
    exact congrArg Host.Outcome.next (enterError_afterFrqCall q1 _)
  rw [q2, compute_ok, bind_done]
  refine ⟨fun q3 => ?_, fun r2 q3 => ?_⟩
  · rw [transceive_afterFrqCall_of_unavailable q3]
    exact congrArg Host.Outcome.next (enterError_afterModCall q1 q3 _)
  rw [transceive_afterFrqCall_of_bytes q3, bind_done, afterModCall_cfg]
  refine ⟨fun q4 => ?_, fun m d q4 q5 => ?_⟩
  · rw [q4]
    exact congrArg Host.Outcome.next (enterError_afterModCall q1 q3 _)
  obtain ⟨c, hc⟩ := clsmod_ok (decmod_le q4) d
  rw [q4, compute_ok, bind_done, hc, compute_ok, bind_done, afterModCall_tbl, q5]
  exact congrArg Host.Outcome.next (enterError_afterModCall q1 q3 _)

end Sys2Proof.Machine
end

section
/-! PROOFS. Reset and the host between operations: what reset leaves (spec/70_reset_and_hazards.md R190 to R195), what each
move that is not an operation does (R192, R193, R203), and that the records only grow (R202). -/

namespace Sys2Proof.Machine

/-! ### The records only grow (R202) -/

/-- `t` has the records of `s` with nothing taken from them (R202). -/
def ExtendsRecords (s t : State) : Prop := s.calls <+: t.calls ∧ s.faultLog <+: t.faultLog

theorem LogsFault.faultLog_isPrefix {s t : State} (h : LogsFault s t) : s.faultLog <+: t.faultLog := by
  rcases h with ⟨k, -, hlog⟩ | ⟨-, hlog⟩
  · exact ⟨[k], hlog.symm⟩
  · exact ⟨[], by rw [hlog, List.append_nil]⟩

theorem exec_pure_extendsRecords {i : Instr} {s t : State} (hi : isSequencer i = false) (h : exec i s = .next t) :
    ExtendsRecords s t := by
  have hlog : LogsFault s t := (pureOperationsWriteOnlyResults i s t hi h).2
  exact ⟨exec_pure_calls hi h ▸ List.prefix_rfl, hlog.faultLog_isPrefix⟩

theorem exec_sequencer_extendsRecords {i : Instr} {s t : State} (hi : isSequencer i = true) (h : exec i s = .next t) :
    ExtendsRecords s t := by
  obtain ⟨cs, ht, -, hlog⟩ := exec_sequencer_frame hi h
  have hcalls : t.calls = s.calls ++ cs := by rw [ht]; rfl
  exact ⟨⟨cs, hcalls.symm⟩, hlog.faultLog_isPrefix⟩

theorem exec_extendsRecords {i : Instr} {s t : State} (h : exec i s = .next t) : ExtendsRecords s t := by
  cases hi : isSequencer i with
  | false => exact exec_pure_extendsRecords hi h
  | true => exact exec_sequencer_extendsRecords hi h

/-- Settles O58: an operation only adds to the records, a reserved code logs its fault, the host's own call is recorded,
and every other move leaves both as they are. -/
theorem stepOnlyExtendsRecords : Obligations.StepOnlyExtendsRecords := by
  intro s t h
  rcases step_cases h with rfl | ⟨mv, rest, -, ⟨p, i, -, -, he⟩ | rfl | ⟨-, rfl⟩ | rfl | ⟨F, rfl⟩⟩
  · exact ⟨List.prefix_rfl, List.prefix_rfl⟩            -- nothing pending
  · exact exec_extendsRecords (s := { s with pending := rest }) he
  · exact ⟨List.prefix_rfl, List.prefix_append _ _⟩     -- a reserved code
  · exact ⟨List.prefix_rfl, List.prefix_rfl⟩            -- reset
  · exact ⟨List.prefix_rfl, List.prefix_rfl⟩            -- a use of the snapshot
  · exact ⟨List.prefix_append _ _, List.prefix_rfl⟩     -- a call of the host's own

/-! ### A step, move by move (R192, R193, R203) -/

/-- With no move pending the block waits (R193). -/
theorem step_of_pending_eq_nil {s : State} (hp : s.pending = []) : step s = .next s := by
  simp only [step, hp]

/-- A use of the snapshot's fields while they have no meaning stops the model (R192, R23). -/
theorem step_readSnap_of_invalid {s : State} {rest : List HostMove} (hp : s.pending = .readSnap :: rest)
    (hv : s.snap.valid = false) : step s = .fault .snapReadWhileInvalid := by
  simp only [step, hp, hostReadsSnap, hv, Bool.false_eq_true, if_false]

/-- A use of the snapshot's fields while they have a meaning takes the move and nothing else (R203). -/
theorem step_readSnap_of_valid {s : State} {rest : List HostMove} (hp : s.pending = .readSnap :: rest)
    (hv : s.snap.valid = true) : step s = .next { s with pending := rest } := by
  simp only [step, hp, hostReadsSnap, hv, if_true]

/-- The host's own call of the transport is one call of `transceive` that is not CIVB's, the move taken (R203). -/
theorem step_drive {s : State} {F : List Byte} {rest : List HostMove} (hp : s.pending = .drive F :: rest) :
    step s = .next (hostDrives F { s with pending := rest }) := by
  simp only [step, hp]

/-- A presentation is answered whatever its code: an operation returns, a reserved code raises (R178, R78). -/
theorem step_issue_answers {s : State} {p : Ports} {rest : List HostMove} (hp : s.pending = .issue p :: rest) :
    ∃ t, step s = .next t := by
  cases hd : decode p with
  | ok i =>
    obtain ⟨t, ht⟩ := exec_answers i { s with pending := rest }
    exact ⟨t, (step_issue_of_decode hp hd).trans ht⟩
  | error r => exact ⟨_, step_issue_of_reject hp hd⟩

/-- Settles O7: the equation of `step` for an empty list of moves. -/
theorem stepWaitsForTheHost : Obligations.StepWaitsForTheHost := fun _ => step_of_pending_eq_nil

/-- Settles O8: the two equations of `step` for a use of the snapshot. -/
theorem snapReadStopsExactlyWhileInvalid : Obligations.SnapReadStopsExactlyWhileInvalid :=
  fun _ _ hp => ⟨step_readSnap_of_invalid hp, step_readSnap_of_valid hp⟩

/-- Settles O9: one call of `transceive`, in the closed form of `madeCalls`. -/
theorem hostCallLeavesBlockAlone : Obligations.HostCallLeavesBlockAlone := by
  intro s F rest hp
  rw [step_drive hp, hostDrives, afterCall_eq]
  rfl

/-- Settles O10: every move is answered, save a use of the snapshot while there is none. -/
theorem stepStopsOnlyOnInvalidSnapRead : Obligations.StepStopsOnlyOnInvalidSnapRead := by
  intro s
  match hp : s.pending with
  | [] => exact .inl ⟨s, step_of_pending_eq_nil hp⟩
  | .issue _ :: _ => exact .inl (step_issue_answers hp)
  | .reset :: _ => exact .inl ⟨_, step_reset hp⟩
  | .drive _ :: _ => exact .inl ⟨_, step_drive hp⟩
  | .readSnap :: _ =>
    cases hv : s.snap.valid with
    | false => exact .inr ⟨step_readSnap_of_invalid hp hv, rfl, rfl⟩
    | true => exact .inl ⟨_, step_readSnap_of_valid hp hv⟩

/-! ### The state after reset (R190 to R195) -/

/-- The spec's defaults meet R5 whatever ROUND_TIE is (R195). -/
theorem cfg_defaults_wellFormed (tie : RoundTie) : ({ roundTie := tie } : Cfg).WellFormed := by
  cases tie <;> decide

/-- Settles O11: the two registers of the state after reset, as `State.reset` writes them. -/
theorem resetLeavesIdleAndNoFault : Obligations.ResetLeavesIdleAndNoFault := ⟨rfl, rfl⟩

/-- Settles O12: the configured image carries the proof that it is well-formed, and CFG holds the spec's defaults. -/
theorem resetLeavesConfiguredRom : Obligations.ResetLeavesConfiguredRom :=
  ⟨rfl, rfl, Config.rom.wf, cfg_defaults_wellFormed Config.roundTie⟩

end Sys2Proof.Machine
end
